-- ==== Sys2Proof/Word.lean ====
section
/-! DEFINITION. The words of the bus and their plainest readings.

`00_scope.md` rule R11 numbers the bits of a word from 0 and reads a field as an unsigned integer unless a rule
says signed; `20_memory.md` rule R60 gives the bus 24 address bits and 32 data bits. -/

namespace Sys2Proof

/-- One 32-bit word of the bus: the only access width there is (rules R60, R68). -/
abbrev Word := BitVec 32

/-- One 24-bit word address of the bus (rule R60). -/
abbrev Addr := BitVec 24

/-- One complex sample as the bus lays it out: the real word and the imaginary word (rule R61). -/
abbrev Sample := Word × Word

/-- A flag as a word: 1 when set, 0 when clear. -/
def flagWord (b : Bool) : Word := if b then 1 else 0

end Sys2Proof
end

