-- ==== Sys2Proof/Syntax.lean ====
section
/-! DEFINITION. The commands: one constructor per row of `spec/opcode_table.json` (`30_encoding.md` rules R91, R92).

The block has no instruction memory: an instruction is a command, the 32-bit word the host writes to `CMD` (rules R10,
R90). `FSMSTEP` is one row although its meaning is selected by the sequencer position (rule R94). -/

namespace Sys2Proof

/-- `argA[0] = REF` of `DEMOD`: the reference chirp to correlate against (rule R92). -/
inductive RefSel
  /-- `REF = 0`: against `DOWN`. -/
  | down
  /-- `REF = 1`: against `UP`. -/
  | up
deriving DecidableEq, Repr

/-- `argA[1] = SRC` of `DEMOD`: which samples are correlated (rule R92). -/
inductive SrcSel
  /-- `SRC = 0`: the samples are `SYM`. -/
  | sym
  /-- `SRC = 1`: the samples are `SYM[n] * CORR[n]`. -/
  | symCorr
deriving DecidableEq, Repr

/-- `argA[0] = TEST` of `START`: the mode it selects (rules R92, R253). -/
inductive Mode
  /-- `TEST = 0`: host-level commands only. -/
  | run
  /-- `TEST = 1`: unit-level commands too. -/
  | test
deriving DecidableEq, Repr

/-- One command of the opcode map (rule R91). -/
inductive Instr
  /-- `NOP`, 0x00 (rule R221). -/
  | nop
  /-- `RESET`, 0x01 (rule R222). -/
  | reset
  /-- `START`, 0x02, with the mode it selects (rule R223). -/
  | start (mode : Mode)
  /-- `WORK`, 0x03: one invocation (rule R224). -/
  | work
  /-- `FRAME_INFO`, 0x04 (rule R226). -/
  | frameInfo
  /-- `GEN`, 0x10 (rule R123). -/
  | gen
  /-- `DEMOD`, 0x11, with its reference and its source (rule R136). -/
  | demod (ref : RefSel) (src : SrcSel)
  /-- `INTERP`, 0x12 (rule R148). -/
  | interp
  /-- `CFOEST`, 0x13 (rule R161). -/
  | cfoest
  /-- `CFOALT`, 0x14 (rule R163). -/
  | cfoalt
  /-- `STOEST`, 0x15 (rule R172). -/
  | stoest
  /-- `FDLY`, 0x16 (rule R182). -/
  | fdly
  /-- `DOWNS`, 0x17 (rule R184). -/
  | downs
  /-- `FSMSTEP`, 0x18 (rule R191). -/
  | fsmstep
  /-- `DRAIN`, 0x19 (rule R225). -/
  | drain
deriving DecidableEq, Repr

end Sys2Proof
end

