-- ==== Sys2Proof/WellFormed.lean ====
section
/-! DEFINITION. Well-formedness: of a command as syntax, and of a command word.

Each operand of a command is one bit of `argA` (rule R92), so `Instr` admits no ill-formed term and its check holds of
every constructor. What can be ill formed is a WORD: rule R93 (1) names three ways, one predicate each below. They are
written from the table of rules R90 to R92 and not from the decoder, so that `Decode.lean` can be held against them. -/

namespace Sys2Proof

/-- Every command is well formed: its operands are single bits, and every value of them is legal (rule R92). -/
def Instr.wf : Instr → Bool
  | .nop => true
  | .reset => true
  | .start _ => true
  | .work => true
  | .frameInfo => true
  | .gen => true
  | .demod _ _ => true
  | .interp => true
  | .cfoest => true
  | .cfoalt => true
  | .stoest => true
  | .fdly => true
  | .downs => true
  | .fsmstep => true
  | .drain => true

/-- One row of the opcode map: the opcode and the mask of the `argA` bits that must be 0 (rules R91, R92). -/
structure OpcodeRow where
  mnemonic : String
  op : BitVec 8
  /-- The bits of `argA` that rule R92 requires to be 0. -/
  argZero : BitVec 8
deriving DecidableEq, Repr

/-- The opcode map of rule R91 with the arguments of rule R92. -/
def opcodeRows : List OpcodeRow :=
  [⟨"NOP", 0x00, 0xFF⟩, ⟨"RESET", 0x01, 0xFF⟩, ⟨"START", 0x02, 0xFE⟩, ⟨"WORK", 0x03, 0xFF⟩, ⟨"FRAME_INFO", 0x04, 0xFF⟩,
   ⟨"GEN", 0x10, 0xFF⟩, ⟨"DEMOD", 0x11, 0xFC⟩, ⟨"INTERP", 0x12, 0xFF⟩, ⟨"CFOEST", 0x13, 0xFF⟩, ⟨"CFOALT", 0x14, 0xFF⟩,
   ⟨"STOEST", 0x15, 0xFF⟩, ⟨"FDLY", 0x16, 0xFF⟩, ⟨"DOWNS", 0x17, 0xFF⟩, ⟨"FSMSTEP", 0x18, 0xFF⟩, ⟨"DRAIN", 0x19, 0xFF⟩]

/-- Bits [31:16] of a command word are 0 (rules R90, R93). -/
def highHalfZero (w : Word) : Bool := w.extractLsb' 16 16 == 0

/-- The opcode of a word is one of rule R91. -/
def opcodeKnown (w : Word) : Bool := opcodeRows.any fun r => w.extractLsb' 0 8 == r.op

/-- Every `argA` bit that rule R92 requires to be 0 for the word's opcode is 0. -/
def argBitsZero (w : Word) : Bool :=
  opcodeRows.all fun r => w.extractLsb' 0 8 != r.op || (w.extractLsb' 8 8 &&& r.argZero) == 0

/-- The word passes every check of rule R93 (1). -/
def legalWord (w : Word) : Bool := highHalfZero w && opcodeKnown w && argBitsZero w

end Sys2Proof
end

