-- ==== Sys2Proof/Decode.lean ====
section
/-! DEFINITION. Decoding and encoding of command words (`30_encoding.md` rules R90 to R93, R95). -/

namespace Sys2Proof

/-- Why a word is no command (rule R93 (1)). All three are the one error `ERR_ILLEGAL`. -/
inductive DecodeError
  /-- A bit of [31:16] is 1. -/
  | highHalf
  /-- The opcode is reserved (rule R95). -/
  | reservedOpcode
  /-- An `argA` bit that rule R92 requires to be 0 is 1. -/
  | badArgument
deriving DecidableEq, Repr

/-- The opcode field `w[7:0]` (rule R90). -/
def opField (w : Word) : BitVec 8 := w.extractLsb' 0 8

/-- The argument field `w[15:8]` (rule R90). -/
def argField (w : Word) : BitVec 8 := w.extractLsb' 8 8

/-- A command without arguments: `argA` must be 0 (rule R92). -/
def decodePlain (arg : BitVec 8) (i : Instr) : Except DecodeError Instr :=
  if arg = 0 then .ok i else .error .badArgument

/-- `START`: `argA[0] = TEST`, `argA[7:1]` must be 0 (rule R92). -/
def decodeStart (arg : BitVec 8) : Except DecodeError Instr :=
  if arg.extractLsb' 1 7 = 0 then .ok (.start (if arg.getLsbD 0 then .test else .run)) else .error .badArgument

/-- `DEMOD`: `argA[0] = REF`, `argA[1] = SRC`, `argA[7:2]` must be 0 (rule R92). -/
def decodeDemod (arg : BitVec 8) : Except DecodeError Instr :=
  if arg.extractLsb' 2 6 = 0 then
    .ok (.demod (if arg.getLsbD 0 then .up else .down) (if arg.getLsbD 1 then .symCorr else .sym))
  else .error .badArgument

/-- The opcode map (rule R91). -/
def decodeOp (op arg : BitVec 8) : Except DecodeError Instr :=
  match op.toNat with
  | 0x00 => decodePlain arg .nop
  | 0x01 => decodePlain arg .reset
  | 0x02 => decodeStart arg
  | 0x03 => decodePlain arg .work
  | 0x04 => decodePlain arg .frameInfo
  | 0x10 => decodePlain arg .gen
  | 0x11 => decodeDemod arg
  | 0x12 => decodePlain arg .interp
  | 0x13 => decodePlain arg .cfoest
  | 0x14 => decodePlain arg .cfoalt
  | 0x15 => decodePlain arg .stoest
  | 0x16 => decodePlain arg .fdly
  | 0x17 => decodePlain arg .downs
  | 0x18 => decodePlain arg .fsmstep
  | 0x19 => decodePlain arg .drain
  | _ => .error .reservedOpcode

/-- The decoder: every 32-bit word is one command or is refused (rule R93 (1)). -/
def decode (w : Word) : Except DecodeError Instr :=
  if w.extractLsb' 16 16 = 0 then decodeOp (opField w) (argField w) else .error .highHalf

/-- The instruction the decoder reads from the low `nbits` bits of a command word. -/
def decodeTableWord (nbits w : Nat) : Option Instr :=
  match decode (BitVec.ofNat 32 (w % 2 ^ nbits)) with
  | .ok i => some i
  | .error _ => none

/-! ### The encoder -/

/-- The opcode of a command (rule R91). -/
def encodeOp : Instr → BitVec 8
  | .nop => 0x00
  | .reset => 0x01
  | .start _ => 0x02
  | .work => 0x03
  | .frameInfo => 0x04
  | .gen => 0x10
  | .demod _ _ => 0x11
  | .interp => 0x12
  | .cfoest => 0x13
  | .cfoalt => 0x14
  | .stoest => 0x15
  | .fdly => 0x16
  | .downs => 0x17
  | .fsmstep => 0x18
  | .drain => 0x19

/-- The bit of `START`'s argument (rule R92). -/
def modeBit : Mode → BitVec 1
  | .run => 0
  | .test => 1

/-- The bit `REF` of `DEMOD` (rule R92). -/
def refBit : RefSel → BitVec 1
  | .down => 0
  | .up => 1

/-- The bit `SRC` of `DEMOD` (rule R92). -/
def srcBit : SrcSel → BitVec 1
  | .sym => 0
  | .symCorr => 1

/-- The argument byte of a command (rule R92). -/
def encodeArg : Instr → BitVec 8
  | .start m => (0 : BitVec 7) ++ modeBit m
  | .demod r s => (0 : BitVec 6) ++ srcBit s ++ refBit r
  | .nop => 0
  | .reset => 0
  | .work => 0
  | .frameInfo => 0
  | .gen => 0
  | .interp => 0
  | .cfoest => 0
  | .cfoalt => 0
  | .stoest => 0
  | .fdly => 0
  | .downs => 0
  | .fsmstep => 0
  | .drain => 0

/-- The word of a command: `op` in [7:0], `argA` in [15:8], zeros above (rule R90). -/
def encode (i : Instr) : Word := (0 : BitVec 16) ++ encodeArg i ++ encodeOp i

end Sys2Proof
end

