-- ==== Sys2Proof/Config.lean ====
section
/-! DEFINITION. What one implementation fixes, and the values the spec leaves open.

First the implementation constants of `00_scope.md` rule R8. Then the FREE VALUES: constants without a body, of
which no proof can learn anything. They are the primitives of the numerics record `NUM` (rule R13,
`93_implementation_defined.md` U2 and U8), whose results the spec bounds by no error, and the values that the
rules, which are stated over the real numbers, do not give for words that stand for no real number. -/

namespace Sys2Proof.Config

/-- `EVQ_DEPTH`: the capacity of the frame-information event queue (rules R8, R43). -/
def evqDepth : Nat := 4

/-- `GEN_OS`: the oversampling argument with which the block generates its own chirp pair (rules R8, R125). -/
def genOs : Nat := 1

/-- `WIN_REQ = OS * (N + 2)`: the input samples one invocation needs (rules R8, R180). -/
def winReq (os n : Nat) : Nat := os * (n + 2)

/-- `DESIGN CHOICE (log 4), unsafe.` The 22 payload bits of a NaN that a binary32 operation makes out of two operands:
IEEE 754 fixes that the result is a NaN and leaves its payload open. -/
opaque nanPayload : Word → Word → BitVec 22

/-- `DESIGN CHOICE (log 4), safe.` The peak index of an array of magnitudes in which no entry is `>=` every entry, which
happens only when one of them is a NaN: rule R132 is stated over real numbers and gives no index. -/
opaque peakOpen : List Word → Nat

/-- `DESIGN CHOICE (log 4), safe.` The delay tap for a `LAMBDA_STO` that is no real number (infinite or NaN); rule R181 is
stated over real numbers. The model keeps the bounds rule R181 states. -/
opaque tapOpen : Word → Nat → Int

/-- `DESIGN CHOICE (log 4), safe.` `cis` of a word that stands for no real number. -/
opaque cisOpen : Word → Sample

/-- `DESIGN CHOICE (log 4), safe.` `arg_turns` of a sample one part of which stands for no real number. -/
opaque argOpen : Sample → Word

/-- Free value (log 3): `cis` of the implementation's numerics record (rule R13). -/
opaque cis : Word → Sample

/-- Free value (log 3): complex addition of the implementation's numerics record. -/
opaque cadd : Sample → Sample → Sample

/-- Free value (log 3): complex multiplication of the implementation's numerics record. -/
opaque cmul : Sample → Sample → Sample

/-- Free value (log 3): the squared magnitude in the implementation's numerics record. -/
opaque sqmag : Sample → Word

/-- Free value (log 3): line `k` of the transform of the implementation's numerics record. -/
opaque dftLine : List Sample → Nat → Sample

/-- Free value (log 3): the total energy of an array of squared magnitudes in the implementation's numerics record
(U8: the zero-energy test is part of `NUM`). -/
opaque energy : List Word → Word

/-- Free value (log 3): real division of the implementation's numerics record. -/
opaque div : Word → Word → Word

/-- Free value (log 3): `arg_turns` of the implementation's numerics record. -/
opaque argTurns : Sample → Word

/-- Free value (log 3): the three-point interpolation of the implementation's numerics record. -/
opaque interp3 : Word → Word → Word → Word

end Sys2Proof.Config
end

