-- ==== Sys2Proof/Machine/Float.lean ====
section
/-! DEFINITION. IEEE 754 binary32 with round-to-nearest-even: the default number format `NUM` of the registers and
sample memories (`00_scope.md` rules R8 and R13, `20_memory.md` rule R61, decision D5).

Every finite binary32 number is a whole multiple of `2^-149`. A word is read as that integer, its value in UNITS,
operations are exact on integers, and one function rounds a quotient of integers back to a word. -/

namespace Sys2Proof.Machine.F32

/-- The exponent field of a word. -/
def expo (w : Word) : Nat := (w.toNat / 2 ^ 23) % 2 ^ 8

/-- The fraction field of a word. -/
def frac (w : Word) : Nat := w.toNat % 2 ^ 23

/-- The sign bit of a word. -/
def sign (w : Word) : Bool := w.msb

/-- The word stands for a real number: its exponent field is not all ones. -/
def isFinite (w : Word) : Bool := expo w != 255

/-- The word is a NaN. -/
def isNan (w : Word) : Bool := expo w == 255 && frac w != 0

/-- The word is one of the two infinities. -/
def isInf (w : Word) : Bool := expo w == 255 && frac w == 0

/-- The magnitude in units of `2^-149`. Of an infinity it is one step above the greatest finite magnitude, so that
comparing magnitudes orders the infinities too. -/
def mag (w : Word) : Nat :=
  if expo w = 0 then frac w else (2 ^ 23 + frac w) * 2 ^ (expo w - 1)

/-- The signed value in units of `2^-149`. -/
def units (w : Word) : Int := if sign w then -(mag w : Int) else mag w

/-- The word compares equal to zero: `+0.0` or `-0.0`. -/
def isZero (w : Word) : Bool := mag w == 0

/-- `+0.0` (rule R61). -/
def zero : Word := 0

/-- The word with its sign bit flipped (rule R122: "negating the sign"). -/
def neg (w : Word) : Word := w ^^^ (0x80000000 : Word)

/-- The word whose sign bit is `s` and whose other bits are those of the number `m`. -/
def withSign (s : Bool) (m : Nat) : Word := if s then neg (BitVec.ofNat 32 m) else BitVec.ofNat 32 m

/-- The quotient of two naturals rounded to the nearest whole number, ties to the even one. -/
def divEven (num den : Nat) : Nat :=
  let q := num / den
  let r := num % den
  if 2 * r < den then q else if den < 2 * r then q + 1 else q + q % 2

/-- The magnitude bits of `num / den` units rounded to nearest, ties to even (rule R61). One binade is `2^23` words, so
the word is the binade's first word plus the rounded significand; a value past the greatest finite one gives the
infinity. -/
def roundMag (num den : Nat) : Nat :=
  let k := (num / den).log2 - 23
  min (k * 2 ^ 23 + divEven num (den * 2 ^ k)) 0x7F800000

/-- The word nearest to `num / den` units, the sign of a zero result being `s`. -/
def roundSigned (s : Bool) (num : Int) (den : Nat) : Word :=
  if num = 0 then withSign s 0 else withSign (num < 0) (roundMag num.natAbs den)

/-- The word of the real number `num / den`: rounding to nearest, ties to even, zero is `+0.0` (rule R61). -/
def ofFrac (num : Int) (den : Nat) : Word := roundSigned false (num * 2 ^ 149) den

/-- A quiet NaN; which of them is open. -/
def nan (a b : Word) : Word := (0x7FC00000 : Word) ||| (Config.nanPayload a b).setWidth 32

/-- The infinity of a sign. -/
def inf (s : Bool) : Word := withSign s 0x7F800000

/-- IEEE 754 addition. -/
def add (a b : Word) : Word :=
  if isNan a || isNan b then nan a b
  else if isInf a then if isInf b && sign a != sign b then nan a b else a
  else if isInf b then b
  else roundSigned (sign a && sign b) (units a + units b) 1

/-- IEEE 754 subtraction. -/
def sub (a b : Word) : Word := if isNan b then nan a b else add a (neg b)

/-- IEEE 754 multiplication. -/
def mul (a b : Word) : Word :=
  let s := sign a != sign b
  if isNan a || isNan b then nan a b
  else if isInf a || isInf b then if isZero a || isZero b then nan a b else inf s
  else roundSigned s (units a * units b) (2 ^ 149)

/-- IEEE 754 division. -/
def div (a b : Word) : Word :=
  let s := sign a != sign b
  if isNan a || isNan b then nan a b
  else if isInf a then if isInf b then nan a b else inf s
  else if isInf b then withSign s 0
  else if isZero b then if isZero a then nan a b else inf s
  else roundSigned s ((if s then -1 else 1) * (mag a * 2 ^ 149 : Nat)) (mag b)

/-- `a >= b` on the values of two words; false when one is a NaN. -/
def ge (a b : Word) : Bool := !isNan a && !isNan b && decide (units b ≤ units a)

/-- The greatest whole number not above the value, as a word (rule R12); a word that stands for no real number is left as
it is, as IEEE 754 has it. -/
def floor (w : Word) : Word :=
  if isFinite w then roundSigned (sign w) (units w / 2 ^ 149 * 2 ^ 149) 1 else w

/-- `round_haz` of the exact value of a word (rule R12): nearest integer, ties away from zero; none where the word
stands for no real number. -/
def roundHaz (w : Word) : Option Int :=
  if isFinite w then
    let r : Int := ((mag w + 2 ^ 148) / 2 ^ 149 : Nat)
    some (if sign w then -r else r)
  else none

/-! ### The circular functions

Fixed-point arithmetic with 213 fraction bits, 64 more than the finest binary32 step, rounded once at the end. -/

/-- `floor (2*pi * 2^256)`. -/
def twoPi256 : Nat :=
  727543153783532648560469885555459725306786754656784859917544302235877788932370

/-- The terms of an alternating power series in fixed point with `p` fraction bits: the next term is the last one times
`x2`, divided by `d (d + 1)`, with its sign changed. -/
def series (p : Nat) (x2 : Nat) : Nat → Nat → Nat → Int → Int
  | 0, _, _, _ => 0
  | fuel + 1, d, t, s => s * t + series p x2 fuel (d + 2) (t * x2 / 2 ^ p / (d * (d + 1))) (-s)

/-- Sine and cosine, with 213 fraction bits, of `t` units of `2^-149` turns, for `t` at most an eighth of a turn. -/
def sinCos (t : Nat) : Int × Int :=
  let x := t * twoPi256 / 2 ^ 192
  let x2 := x * x / 2 ^ 213
  (series 213 x2 28 2 x 1, series 213 x2 28 1 (2 ^ 213) 1)

/-- `cis` (rule R13): the angle is reduced exactly to the nearest quarter turn, the sine and cosine of what is left are
computed in fixed point and each part is rounded once. -/
def cis (q : Word) : Sample :=
  if isFinite q then
    let turn := (units q) % (2 ^ 149 : Int)
    let quarter := (turn + 2 ^ 146) / 2 ^ 147
    let rest := turn - quarter * 2 ^ 147
    let sc := sinCos rest.natAbs
    let sn := if rest < 0 then -sc.1 else sc.1
    let cs := sc.2
    let out := fun (v : Int) => roundSigned false v (2 ^ 64)
    match (quarter % 4).toNat with
    | 0 => (out cs, out sn)
    | 1 => (out (-sn), out cs)
    | 2 => (out (-cs), out (-sn))
    | _ => (out sn, out (-cs))
  else Config.cisOpen q

/-- The terms of the arctangent's power series in fixed point: `t` holds the power, `d` the divisor. -/
def atanSeries (p : Nat) (x2 : Nat) : Nat → Nat → Nat → Int → Int
  | 0, _, _, _ => 0
  | fuel + 1, d, t, s => s * (t / d : Nat) + atanSeries p x2 fuel (d + 2) (t * x2 / 2 ^ p) (-s)

/-- The arctangent of `num / den` in turns, with 640 fraction bits, for `num` at most `den`. Above one half the identity
`atan r = 1/8 turn - atan ((1 - r) / (1 + r))` brings the argument below one third. -/
def atanTurns (num den : Nat) : Int :=
  let low := fun (n d : Nat) =>
    let r := n * 2 ^ 640 / d
    atanSeries 640 (r * r / 2 ^ 640) 50 1 r 1 * 2 ^ 256 / twoPi256
  if 2 * num ≤ den then low num den else 2 ^ 637 - low (den - num) (den + num)

/-- `arg_turns` (rule R13) rounded once to binary32; `z` is not zero. The exact angle lies in `(-1/2, 1/2]`. `DESIGN CHOICE (log
16), unsafe`: an angle nearer to `-1/2` than half a step of the format (a negative real part and a tiny negative imaginary one)
rounds to exactly -0.5, which rule R13, being about exact numbers, neither asks for nor excludes. -/
def argTurns (z : Sample) : Word :=
  if isFinite z.1 && isFinite z.2 then
    let re := units z.1
    let im := units z.2
    let first := if im.natAbs ≤ re.natAbs then atanTurns im.natAbs re.natAbs
      else 2 ^ 638 - atanTurns re.natAbs im.natAbs
    let upper := if re < 0 then 2 ^ 639 - first else first
    roundSigned false ((if im < 0 then -upper else upper) * 2 ^ 149) (2 ^ 640)
  else Config.argOpen z

end Sys2Proof.Machine.F32
end

