-- ==== Sys2Proof/Machine/Numerics.lean ====
section
/-! DEFINITION. The numerics record `NUM` (`00_scope.md` rule R13) and its word instances.

The rules are stated over exact real and complex numbers, and the hardware computes in a number format; the spec asks a
model to take the real-valued primitives as ONE record of total functions. `Arith R` holds what a number format itself
gives (conversion, real arithmetic, comparison, rounding, the circular functions), `Num R` adds the compound primitives.
Every unit of the block is written once, over `Num R`. Three instances exist: `binary32` and `implementation` here, on
the words of the bus, and the exact one over the real numbers in `Sys2Proof/Reference.lean`. -/

namespace Sys2Proof.Machine

/-- A complex value as its real and imaginary parts (rule R41). -/
abbrev Cx (R : Type) := R × R

/-- What a number format gives: the real operations of rules R12 and R13. -/
structure Arith (R : Type) where
  /-- The value of the fraction `num / den` in the format. -/
  ofFrac : Int → Nat → R
  neg : R → R
  add : R → R → R
  sub : R → R → R
  mul : R → R → R
  div : R → R → R
  /-- `a >= b` on stored values (rule R132). -/
  ge : R → R → Bool
  /-- The value compares equal to zero (rules R134, R146, R162). -/
  isZero : R → Bool
  floor : R → R
  /-- `round_haz` (rule R12); none where the stored value is no real number. -/
  roundHaz : R → Option Int
  /-- `cis`, its argument in turns (rule R13). -/
  cis : R → Cx R
  /-- `arg_turns` (rule R13), in `(-1/2, 1/2]` over the exact numbers; what rounding does at the open end is log 16. -/
  argTurns : Cx R → R
  /-- The factor `G = 406.5506497 / (64 * pi)` of rule R146. -/
  interpGain : R

/-- The numerics record `NUM` of rule R13 (U2, U8). -/
structure Num (R : Type) extends Arith R where
  cadd : Cx R → Cx R → Cx R
  cmul : Cx R → Cx R → Cx R
  /-- `|z|^2` (rule R13). -/
  sqmag : Cx R → R
  /-- `DFT_L` of a vector of `L` elements (rule R131). -/
  dft : List (Cx R) → List (Cx R)
  /-- The total energy `(1/L) * sum S[k]` (rule R133). -/
  energy : List R → R
  /-- `Interp3` (rule R146). -/
  interp3 : R → R → R → R
  /-- The peak index where the comparison of rule R132 singles none out. -/
  peakOpen : List R → Nat
  /-- The delay tap for a `LAMBDA_STO` that is no real number. -/
  tapOpen : R → Nat → Int

variable {R : Type}

/-! ### Formulas of the rules over a number format -/

namespace Arith

/-- The number 0 of the format. -/
def zero (a : Arith R) : R := a.ofFrac 0 1

/-- Minus a real value, as a value of the format: the number 0 less it, so that minus 0 is `+0.0` (rules R61, R162). The sign flip
of a stored word is `neg` (rule R122). -/
def minus (a : Arith R) (x : R) : R := a.sub a.zero x

/-- A whole number in the format. -/
def ofNat (a : Arith R) (n : Nat) : R := a.ofFrac n 1

/-- The complex number 0. -/
def czero (a : Arith R) : Cx R := (a.zero, a.zero)

/-- The complex number 1. -/
def cone (a : Arith R) : Cx R := (a.ofNat 1, a.zero)

/-- `conj(z)`: the sign of the stored imaginary part negated (rules R13, R122). -/
def conj (a : Arith R) (z : Cx R) : Cx R := (z.1, a.neg z.2)

/-- Complex addition by parts. -/
def caddFormula (a : Arith R) (z w : Cx R) : Cx R := (a.add z.1 w.1, a.add z.2 w.2)

/-- Complex multiplication by parts. -/
def cmulFormula (a : Arith R) (z w : Cx R) : Cx R :=
  (a.sub (a.mul z.1 w.1) (a.mul z.2 w.2), a.add (a.mul z.1 w.2) (a.mul z.2 w.1))

/-- `|z|^2 = re(z)^2 + im(z)^2` (rule R13). -/
def sqmagFormula (a : Arith R) (z : Cx R) : R := a.add (a.mul z.1 z.1) (a.mul z.2 z.2)

/-- `cis(-j/L)` for `j` in `0..L-1`, the factors of a transform of length `L`. -/
def twiddles (a : Arith R) (l : Nat) : Array (Cx R) :=
  ((List.range l).map fun (j : Nat) => a.cis (a.ofFrac (-(j : Int)) l)).toArray

/-- `Y[k] = sum over n of x[n] * cis(-k*n/L)`, without scaling (rule R131); the angle is taken modulo one turn. -/
def dftFormula (a : Arith R) (x : List (Cx R)) : List (Cx R) :=
  let l := x.length
  let tw := a.twiddles l
  (List.range l).map fun k =>
    x.zipIdx.foldl (fun acc zn => a.caddFormula acc (a.cmulFormula zn.1 (tw.getD (k * zn.2 % l) a.czero))) a.czero

/-- `E = (1/L) * sum S[k]` (rule R133). -/
def energyFormula (a : Arith R) (s : List R) : R := a.div (s.foldl a.add a.zero) (a.ofNat s.length)

/-- `ka = G * (Yp1 - Ym1) / (Yp1 + Ym1 + 2.4674 * Y0)`, and 0 when the denominator is 0 (rule R146). -/
def interp3Formula (a : Arith R) (ym1 y0 yp1 : R) : R :=
  let den := a.add (a.add yp1 ym1) (a.mul (a.ofFrac 24674 10000) y0)
  if a.isZero den then a.zero else a.div (a.mul a.interpGain (a.sub yp1 ym1)) den

/-- `fold(x)` (rule R147): the floor modulus by 1, moved into `(-0.5, 0.5]`. -/
def fold (a : Arith R) (x : R) : R :=
  let r := a.sub x (a.floor x)
  if a.ge (a.ofFrac 1 2) r then r else a.sub r (a.ofNat 1)

/-- `cis(-lam * m / n)` (rules R159, R160). -/
def ramp (a : Arith R) (lam : R) (m n : Nat) : Cx R :=
  a.cis (a.neg (a.div (a.mul lam (a.ofNat m)) (a.ofNat n)))

end Arith

namespace Num

/-- The record whose compound primitives are the rules' formulas, evaluated as written and from left to right in a number
format. -/
def ofArith (a : Arith R) (peakOpen : List R → Nat) (tapOpen : R → Nat → Int) : Num R where
  toArith := a
  cadd := a.caddFormula
  cmul := a.cmulFormula
  sqmag := a.sqmagFormula
  dft := a.dftFormula
  energy := a.energyFormula
  interp3 := a.interp3Formula
  peakOpen := peakOpen
  tapOpen := tapOpen

/-! ### The functions several units share -/

/-- `argmax(S)` (rule R132): the least index `k` with `S[k] >= S[i]` for every `i`. -/
def argmax (num : Num R) (s : List R) : Nat :=
  match s.zipIdx.find? (fun yk => s.all (fun y => num.ge yk.1 y)) with
  | some yk => yk.2
  | none => num.peakOpen s % s.length

/-- Squared magnitudes of the transform of a vector (rules R134, R156, R171). -/
def spectrum (num : Num R) (x : List (Cx R)) : List R := (num.dft x).map num.sqmag

/-- Element-wise product of two vectors (rules R134, R194, R200). -/
def hadamard (num : Num R) (x y : List (Cx R)) : List (Cx R) := List.zipWith num.cmul x y

/-- `n` zeros: the padding of rule R131. -/
def padding (num : Num R) (n : Nat) : List (Cx R) := List.replicate n num.czero

end Num

namespace F32

/-- The binary32 number format as a record. The gain uses pi to 40 digits, far past the format's precision. -/
def arith : Arith Word where
  ofFrac := ofFrac
  neg := neg
  add := add
  sub := sub
  mul := mul
  div := div
  ge := ge
  isZero := isZero
  floor := floor
  roundHaz := roundHaz
  cis := cis
  argTurns := argTurns
  interpGain := ofFrac (4065506497 * 10 ^ 33) (64 * 31415926535897932384626433832795028841972)

end F32

namespace Num

/-- The spec's default hardware instance: IEEE 754 binary32, round to nearest even (rule R8, D5, U2). The order of the sums and the
correct rounding of `cis` and `arg_turns` are `DESIGN CHOICE (log 2), unsafe`: the one statement that rests on an order says
so. -/
def binary32 : Num Word := Num.ofArith F32.arith Config.peakOpen Config.tapOpen

/-- A sample both parts of which compare equal to zero. -/
def zeroSample (z : Sample) : Bool := F32.isZero z.1 && F32.isZero z.2

/-- Any other implementation on binary32 words: the primitives rule R13 leaves to the implementation are FREE VALUES
(log 3), kept to what the spec states of every instance: `cis` of 0 is 1 (rules R126, R160), sums, products and transforms of
zeros and the energy of zeros are 0 (rules R135, R163), `Interp3` of zeros is 0 (rule R146), a quotient with numerator 0 is 0,
`arg_turns` stays in its interval (rule R13). -/
def implementation : Num Word where
  toArith := { F32.arith with
    cis := fun q => if F32.isZero q then F32.arith.cone else Config.cis q
    div := fun x y => if F32.isZero x && F32.isFinite y && !F32.isZero y then F32.zero else Config.div x y
    argTurns := fun z => F32.arith.fold (Config.argTurns z) }
  cadd := fun z w => if zeroSample z && zeroSample w then F32.arith.czero else Config.cadd z w
  cmul := fun z w => if zeroSample z || zeroSample w then F32.arith.czero else Config.cmul z w
  sqmag := fun z => if zeroSample z then F32.zero else Config.sqmag z
  dft := fun x => if x.all zeroSample then x.map (fun _ => F32.arith.czero) else (List.range x.length).map (Config.dftLine x)
  energy := fun s => if s.all F32.isZero then F32.zero else Config.energy s
  interp3 := fun a b c =>
    if F32.isZero a && F32.isZero b && F32.isZero c then F32.zero else Config.interp3 a b c
  peakOpen := Config.peakOpen
  tapOpen := Config.tapOpen

end Num

end Sys2Proof.Machine
end

