-- ==== Sys2Proof/Machine/State.lean ====
section
/-! DEFINITION. The architectural state of the block (`10_state.md`) and its reset value (rule R46).

Every piece of state of rule R20 is here, grouped by the tables that list it. Three fields are the MODEL's own and no
state of the block: the host's bus operations that are still to come (`bus`), the word the last bus read returned
(`busData`), and which instance of the numerics record `NUM` the implementation has (`num`), a parameter of the step by
rule R20 that the model carries as data. -/

namespace Sys2Proof.Machine

/-- The sample memories as bus spaces 1 to 8 (rules R41, R60). -/
inductive Space
  | inbuf | outbuf | sym | pre | prec | up | down | corr
deriving DecidableEq, Repr

/-- Why the machine stops. -/
inductive Fault
  /-- A read of a sample-memory element, by a command or by the host, that nothing has written since reset. Raised by
  every read of a sample memory. SAFE: the spec gives the element no value and asks a model to fault (rule R45,
  `93_implementation_defined.md` U3). -/
  | unwritten (space : Space)
deriving DecidableEq, Repr

/-- Why the model gives an instruction no meaning. -/
inductive Refusal
  /-- The instruction has no meaning yet. SAFE. Raised by no arm: every command is modelled. -/
  | notModelled (mnemonic : String)
deriving DecidableEq, Repr

/-- `STATE`, the source's SyncState (rule R31). -/
inductive SyncState
  | detect | sync | fracCfoCorrec
deriving DecidableEq, Repr

/-- `SYNC_POS`, the position within `SYNC` (rule R32). -/
inductive SyncPos
  | netId1 | netId2 | downchirp1 | downchirp2 | quarterDown
deriving DecidableEq, Repr

/-- The error codes of `STATUS.ERR` (rules R99, R242). -/
inductive ErrCode
  | none | illegal | mode | notStarted | locked | config | evqFull | ro | addr | value
deriving DecidableEq, Repr

/-- The resynchronisation causes of `STATUS.RESYNC_CAUSE` (rules R99, R243). -/
inductive Cause
  | none | netId1 | netId2 | badHdr | frameDone | noDown
deriving DecidableEq, Repr

/-- Which instance of the numerics record `NUM` the implementation has (rule R13, U2). The model's own. -/
inductive NumSel
  /-- The spec's default: IEEE 754 binary32. -/
  | binary32
  /-- Any other: the primitives are free values. -/
  | implementation
deriving DecidableEq, Repr

/-- One bus access of the host (rules R60, R62 to R66). -/
inductive BusOp
  | read (a : Addr)
  | write (a : Addr) (w : Word)
deriving DecidableEq, Repr

/-- One frame-information event (rules R43, R98). -/
structure Event where
  invalid : Bool
  hasCrc : Bool
  payLen : BitVec 8
  symbNumb : BitVec 16
deriving DecidableEq, Repr

/-- The contents of one sample memory: pairs of a word offset in its space (rule R61) and the word stored there, offsets
strictly rising. An offset that is not listed is unwritten and reads as nothing (rule R45), so no listed entry equals what
an unlisted offset reads as. -/
abbrev Mem := List (Nat × Word)

/-- The configuration registers (rule R34). -/
structure Cfg where
  sf : BitVec 4
  os : BitVec 5
  nup : BitVec 6
  nused : BitVec 6
  sync0 : BitVec 12
  sync1 : BitVec 12
  /-- [0] `TWO_SYNC`, [1] `IMPL_HEAD`. -/
  flags : BitVec 2
  hdrSyms : BitVec 16
deriving DecidableEq, Repr

/-- The sequencer position, the estimates and the counters of an acquisition: all that a resynchronisation resets (rules
R22, R31 to R33, R250). -/
structure Acq where
  state : SyncState
  syncPos : SyncPos
  estDone : Bool
  kHat : Word
  lambdaCfo : Word
  lambdaSto : Word
  /-- Signed. -/
  cfoInt : Word
  /-- Signed; -1 is `NOSYM`. -/
  binPrev : Word
  matchCnt : Word
  /-- Signed. -/
  netIdOff : Word
  /-- Signed; -1 is `NOSYM`. -/
  downVal : Word
  symCnt : Word
  symbNumb : Word
deriving DecidableEq, Repr

/-- The handshake and mailbox registers the host writes (rule R37). -/
structure Mailbox where
  inAvail : Word
  outCap : Word
  /-- [0] `INVALID`, [1] `HAS_CRC`. -/
  fiFlags : BitVec 2
  fiPaylen : BitVec 8
  fiSymbnumb : BitVec 16
deriving DecidableEq, Repr

/-- What an invocation reports: the consumed and produced counts and the tag (rule R37). -/
structure Report where
  consumed : Word
  produced : Word
  tagValid : Bool
  tagOffset : BitVec 64
  /-- Signed. -/
  tagCfoint : Word
deriving DecidableEq, Repr

/-- The event counters (rules R38, R259). -/
structure Counters where
  inCount : BitVec 64
  outCount : BitVec 64
  resyncCount : Word
deriving DecidableEq, Repr

/-- The unit result and operand registers (rule R39). -/
structure UnitRegs where
  /-- Signed; -1 is `NOSYM`. -/
  rBin : Word
  rEnergy : Word
  rKa : Word
  rAlt : Word
  opYm1 : Word
  opY0 : Word
  opYp1 : Word
  rK0 : Word
deriving DecidableEq, Repr

/-- The eight sample memories (rule R41). -/
structure SampleMems where
  inbuf : Mem
  outbuf : Mem
  sym : Mem
  pre : Mem
  prec : Mem
  up : Mem
  down : Mem
  corr : Mem
deriving DecidableEq, Repr

/-- The whole state (rule R20). -/
structure State where
  /-- `STATUS[0]` (rule R33). -/
  started : Bool
  /-- `STATUS[1]` (rule R33). -/
  test : Bool
  /-- `STATUS[11:8]` (rule R36). -/
  err : ErrCode
  /-- `STATUS[15:12]` (rule R36). -/
  resyncCause : Cause
  cfg : Cfg
  acq : Acq
  mail : Mailbox
  report : Report
  count : Counters
  unit : UnitRegs
  mems : SampleMems
  /-- `EVQ`, oldest event first (rule R43). -/
  evq : List Event
  /-- `FM_PAYLEN` (rule R28). -/
  fmPaylen : Word
  /-- `FM_HASCRC` bit 0 (rule R28). -/
  fmHascrc : Bool
  /-- `DELAY_D`, signed (rules R22, R181). -/
  delayD : Word
  /-- The model's own: the host's bus operations still to come, in order. -/
  bus : List BusOp
  /-- The model's own: the word the last bus read returned. -/
  busData : Word
  /-- The model's own: the implementation's instance of `NUM`. -/
  num : NumSel
deriving DecidableEq, Repr

/-- The encoding of `NOSYM`, -1 (rules R15, R97). -/
def nosymWord : Word := 0xFFFFFFFF

/-- The reset configuration: SF 7, OS 1, NUP 8, NUSED 7, sync word 0x12, header 8 (rules R34, R46). -/
def Cfg.reset : Cfg :=
  { sf := 7, os := 1, nup := 8, nused := 7, sync0 := 0x12, sync1 := 0, flags := 0, hdrSyms := 8 }

/-- The neutral acquisition context with which `DETECT` begins (rules R46, R223, R250). -/
def Acq.neutral (hdrSyms : BitVec 16) : Acq :=
  { state := .detect, syncPos := .netId1, estDone := false, kHat := 0, lambdaCfo := 0, lambdaSto := 0, cfoInt := 0,
    binPrev := nosymWord, matchCnt := 0, netIdOff := 0, downVal := nosymWord, symCnt := 0,
    symbNumb := hdrSyms.setWidth 32 }

/-- No element of any sample memory is written (rules R45, R46). -/
def SampleMems.unwritten : SampleMems :=
  { inbuf := [], outbuf := [], sym := [], pre := [], prec := [], up := [], down := [], corr := [] }

/-- The machine after reset (rule R46). Nothing is pending on the bus, and `num` is the spec's default instance, `DESIGN
CHOICE (log 2), unsafe`. -/
def State.reset : State :=
  { started := false
    test := false
    err := .none
    resyncCause := .none
    cfg := Cfg.reset
    acq := Acq.neutral 8
    mail := { inAvail := 0, outCap := 0, fiFlags := 0, fiPaylen := 0, fiSymbnumb := 0 }
    report := { consumed := 0, produced := 0, tagValid := false, tagOffset := 0, tagCfoint := 0 }
    count := { inCount := 0, outCount := 0, resyncCount := 0 }
    unit := { rBin := 0, rEnergy := 0, rKa := 0, rAlt := 0, opYm1 := 0, opY0 := 0, opYp1 := 0, rK0 := 0 }
    mems := SampleMems.unwritten
    evq := []
    fmPaylen := 0
    fmHascrc := false
    delayD := 0
    bus := []
    busData := 0
    num := .binary32 }

end Sys2Proof.Machine
end

