-- ==== Sys2Proof/Machine/Ops.lean ====
section
/-! DEFINITION. The named operations the meanings share: the sample memories, the parameters derived from the
configuration, the two ways a command departs from its course (a command error and a resynchronisation), and the checks
every command begins with. -/

namespace Sys2Proof.Machine

/-- The outcome of a command or of a bus access. -/
abbrev Out := Host.Outcome State Fault Refusal

/-! ### Sample memories (rules R41, R45, R61) -/

/-- Offsets strictly rising. No entry can equal what an unlisted offset reads as, since that reads as nothing. -/
abbrev Mem.wf (m : Mem) : Prop := m.Pairwise (fun c d => c.1 < d.1)

/-- The word at an offset; none where nothing has been written since reset (rule R45). -/
def Mem.load (m : Mem) (off : Nat) : Option Word := List.lookup off m

/-- `ws` stored at the offsets `off, off + 1, …`. -/
def Mem.store (m : Mem) (off : Nat) (ws : List Word) : Mem :=
  m.filter (fun c => c.1 < off) ++ (ws.zipIdx off).map (fun wi => (wi.2, wi.1)) ++
    m.filter (fun c => off + ws.length ≤ c.1)

/-- Element `i`: the real part at offset `2 i`, the imaginary part at `2 i + 1` (rule R61). There is no element below
index 0, and an element one word of which is unwritten holds no value. -/
def Mem.elem (m : Mem) : Int → Option Sample
  | .ofNat k =>
    match m.load (2 * k), m.load (2 * k + 1) with
    | some re, some im => some (re, im)
    | _, _ => none
  | .negSucc _ => none

/-- Every element of a list of indices is written. -/
def Mem.written (m : Mem) (idx : List Int) : Bool := idx.all fun i => (m.elem i).isSome

/-- The values of the written elements among a list of indices, in order. -/
def Mem.values (m : Mem) (idx : List Int) : List Sample := idx.filterMap m.elem

/-- The indices `0 .. n-1`. -/
def indices (n : Nat) : List Int := (List.range n).map fun (i : Nat) => (i : Int)

/-- The words of a list of samples, real part first (rule R61). -/
def wordsOf (xs : List Sample) : List Word := xs.flatMap fun z => [z.1, z.2]

/-- One sample memory of a state. -/
def State.mem (s : State) : Space → Mem
  | .inbuf => s.mems.inbuf
  | .outbuf => s.mems.outbuf
  | .sym => s.mems.sym
  | .pre => s.mems.pre
  | .prec => s.mems.prec
  | .up => s.mems.up
  | .down => s.mems.down
  | .corr => s.mems.corr

/-- A state with one sample memory replaced. -/
def State.setMem (s : State) (sp : Space) (m : Mem) : State :=
  { s with mems :=
    match sp with
    | .inbuf => { s.mems with inbuf := m }
    | .outbuf => { s.mems with outbuf := m }
    | .sym => { s.mems with sym := m }
    | .pre => { s.mems with pre := m }
    | .prec => { s.mems with prec := m }
    | .up => { s.mems with up := m }
    | .down => { s.mems with down := m }
    | .corr => { s.mems with corr := m } }

/-- The word at an offset of a sample memory: THE read of one word, by which a frame is stated. -/
def State.load (s : State) (sp : Space) (off : Nat) : Option Word := (s.mem sp).load off

/-- The samples `xs` written to the elements `i, i + 1, …` of a sample memory (rule R14). -/
def State.storeElems (s : State) (sp : Space) (i : Nat) (xs : List Sample) : State :=
  s.setMem sp ((s.mem sp).store (2 * i) (wordsOf xs))

/-- The elements a command reads, or the fault when one of them is unwritten (rule R45, U3). -/
def readElems (sp : Space) (idx : List Int) (s : State) : Except Fault (List Sample) :=
  if (s.mem sp).written idx then .ok ((s.mem sp).values idx) else .error (.unwritten sp)

/-! ### Parameters derived from the configuration (rules R7 to R9, R30) -/

/-- `N = 2^SF`, the working symbol length (rules R7, R9). -/
def State.n (s : State) : Nat := 2 ^ s.cfg.sf.toNat

/-- `OS` (rule R7). -/
def State.os (s : State) : Nat := s.cfg.os.toNat

/-- `NUP` (rule R7). -/
def State.nup (s : State) : Nat := s.cfg.nup.toNat

/-- `NUSED` (rule R7). -/
def State.nused (s : State) : Nat := s.cfg.nused.toNat

/-- `WIN_REQ` (rules R8, R180). -/
def State.winReq (s : State) : Nat := Config.winReq s.os s.n

/-- The number of elements of a sample memory (rule R41). -/
def State.capacity (s : State) : Space → Nat
  | .inbuf => s.winReq
  | .outbuf => s.n
  | .sym => s.n
  | .pre => (s.nup - 1) * s.n
  | .prec => s.nused * s.n
  | .up => s.n
  | .down => s.n
  | .corr => s.n

/-- The implementation's instance of the numerics record (rule R13). -/
def State.nums (s : State) : Num Word :=
  match s.num with
  | .binary32 => Num.binary32
  | .implementation => Num.implementation

/-- `NETID1` (rule R30): the upper nibble times 8 when one sync word is supplied, else the first word. -/
def Cfg.netId1 (c : Cfg) : Nat :=
  if c.flags.getLsbD 0 then c.sync0.toNat else (c.sync0.extractLsb' 4 4).toNat * 8

/-- `NETID2` (rule R30): the lower nibble times 8 when one sync word is supplied, else the second word. -/
def Cfg.netId2 (c : Cfg) : Nat :=
  if c.flags.getLsbD 0 then c.sync1.toNat else (c.sync0.extractLsb' 0 4).toNat * 8

/-- A valid configuration (rule R35): every field in its range of rule R34, and the sync words in theirs. -/
def Cfg.valid (c : Cfg) : Bool :=
  decide (7 ≤ c.sf.toNat) && decide (c.sf.toNat ≤ 12) &&
  decide (1 ≤ c.os.toNat) && decide (c.os.toNat ≤ 16) &&
  decide (3 ≤ c.nup.toNat) && decide (c.nup.toNat ≤ 32) &&
  decide (1 ≤ c.nused.toNat) && decide (c.nused.toNat + 1 ≤ c.nup.toNat) &&
  decide (1 ≤ c.hdrSyms.toNat) &&
  (if c.flags.getLsbD 0 then
    decide (c.sync0.toNat < 2 ^ c.sf.toNat) && decide (c.sync1.toNat < 2 ^ c.sf.toNat)
  else decide (c.sync0.toNat ≤ 0xFF))

/-! ### Values as register words (rules R11, R15, R97) -/

/-- A mathematical integer in a 32-bit register (rule R11). -/
def intWord (v : Int) : Word := BitVec.ofInt 32 v

/-- A correlator result in a register: -1 for `NOSYM` (rules R15, R97). -/
def binWord : Option Nat → Word
  | none => nosymWord
  | some b => BitVec.ofNat 32 b

/-- `round_haz` of the fraction `num / den` (rule R12): nearest integer, ties away from zero. -/
def roundHazFrac (num : Int) (den : Nat) : Int :=
  let r : Int := ((2 * num.natAbs + den) / (2 * den) : Nat)
  if num < 0 then -r else r

/-! ### Departures from the course of a command -/

/-- `STATUS.ERR <- code` (rules R36, R242). -/
def State.setErr (s : State) (code : ErrCode) : State := { s with err := code }

/-- `raise CmdError(code)`: the command is abandoned before it has changed anything, and `STATUS.ERR` records the code.
There is no handler, no saved context and no return: the machine goes on with the next access (rule R241). -/
def cmdError (code : ErrCode) (s : State) : Out := .next (s.setErr code)

/-- `RESYNC(cause)`, the trap of this block (rule R250). It saves nothing and there is no return from it: the machine
continues from `DETECT` (rule R251). -/
def State.resync (s : State) (cause : Cause) : State :=
  { s.storeElems .corr 0 (List.replicate s.n s.nums.cone) with
    acq := Acq.neutral s.cfg.hdrSyms
    resyncCause := cause
    count := { s.count with resyncCount := s.count.resyncCount + 1 } }

/-- A command that has executed ends with `STATUS.ERR <- 0` (rule R93 (6)); a read of an unwritten element is the model's
fault. -/
def finish : Except Fault State → Out
  | .ok s => .next (s.setErr .none)
  | .error f => .fault f

/-- A host-level command that needs a started block (rule R93 (4)). -/
def hostCommand (body : State → Except Fault State) (s : State) : Out :=
  if s.started then finish (body s) else cmdError .notStarted s

/-- A unit-level command: the block must be started, and in `TEST` mode (rule R93 (4), (5)). -/
def unitCommand (body : State → Except Fault State) (s : State) : Out :=
  if s.started then if s.test then finish (body s) else cmdError .mode s else cmdError .notStarted s

end Sys2Proof.Machine
end

