-- ==== Sys2Proof/Machine/Flags.lean ====
section
/-! DEFINITION. The status word, the codes of its fields, and the flags commands write (rules R33, R36, R96, R99). -/

namespace Sys2Proof.Machine

/-- `STATE` codes (rules R31, R96). -/
def SyncState.code : SyncState → Nat
  | .detect => 0
  | .sync => 1
  | .fracCfoCorrec => 2

/-- `SYNC_POS` codes (rules R32, R96). -/
def SyncPos.code : SyncPos → Nat
  | .netId1 => 0
  | .netId2 => 1
  | .downchirp1 => 2
  | .downchirp2 => 3
  | .quarterDown => 4

/-- Error codes (rule R99). -/
def ErrCode.code : ErrCode → Nat
  | .none => 0
  | .illegal => 1
  | .mode => 2
  | .notStarted => 3
  | .locked => 4
  | .config => 5
  | .evqFull => 6
  | .ro => 7
  | .addr => 8
  | .value => 9

/-- Resynchronisation causes (rule R99). -/
def Cause.code : Cause → Nat
  | .none => 0
  | .netId1 => 1
  | .netId2 => 2
  | .badHdr => 3
  | .frameDone => 4
  | .noDown => 5

/-- `STATUS` (rule R36): [0] `STARTED`, [1] `TEST`, [3:2] `STATE`, [6:4] `SYNC_POS`, [7] `EST_DONE`, [11:8] `ERR`, [15:12]
`RESYNC_CAUSE`, [18:16] `EVQ_LEVEL`, zeros above. -/
def statusWord (s : State) : Word :=
  (0 : BitVec 13) ++ BitVec.ofNat 3 s.evq.length ++ BitVec.ofNat 4 s.resyncCause.code ++ BitVec.ofNat 4 s.err.code ++
    BitVec.ofBool s.acq.estDone ++ BitVec.ofNat 3 s.acq.syncPos.code ++ BitVec.ofNat 2 s.acq.state.code ++
    BitVec.ofBool s.test ++ BitVec.ofBool s.started

/-- `EST_DONE <- 1` (rules R33, R194). -/
def State.setEstDone (s : State) : State := { s with acq := { s.acq with estDone := true } }

/-- `TAG_VALID <- 0 ; PRODUCED <- 0`, with which every step begins (rules R33, R191). -/
def State.clearReport (s : State) : State := { s with report := { s.report with tagValid := false, produced := 0 } }

/-- `CONSUMED <- v` (rules R37, R190). -/
def State.setConsumed (s : State) (v : Int) : State := { s with report := { s.report with consumed := intWord v } }

/-- The invocation that makes no progress: `CONSUMED <- 0 ; PRODUCED <- 0 ; TAG_VALID <- 0` (rule R224). -/
def State.noProgress (s : State) : State := s.clearReport.setConsumed 0

/-- A tag is emitted: `TAG_VALID <- 1 ; TAG_OFFSET <- OUT_COUNT ; TAG_CFOINT <- v` (rules R98, R199). -/
def State.emitTag (s : State) (v : Word) : State :=
  { s with report := { s.report with tagValid := true, tagOffset := s.count.outCount, tagCfoint := v } }

/-- The counter update that ends a step: `IN_COUNT` and `OUT_COUNT` modulo `2^64` (rules R38, R191). -/
def State.countUp (s : State) : State :=
  { s with count := { s.count with
      inCount := s.count.inCount + s.report.consumed.setWidth 64
      outCount := s.count.outCount + s.report.produced.setWidth 64 } }

end Sys2Proof.Machine
end

