-- ==== Sys2Proof/Machine/Operands.lean ====
section
/-! DEFINITION. The operands: the register map with its access classes and fields (`10_state.md` rules R21 to R47), the
address of a bus access (rule R60), and the vectors and bins commands take from registers and memories. -/

namespace Sys2Proof.Machine

/-! ### The register map -/

/-- The registers by name (rules R22, R34, R36, R37, R39). -/
inductive Reg
  | cfgSf | cfgOs | cfgNup | cfgNused | cfgSync0 | cfgSync1 | cfgFlags | cfgHdrsyms
  | cmd | status | inAvail | outCap | consumed | produced
  | tagValid | tagOffsetLo | tagOffsetHi | tagCfoint
  | fiFlags | fiPaylen | fiSymbnumb
  | kHat | lambdaCfo | lambdaSto | cfoInt | binPrev | matchCnt | netIdOff | downVal | symCnt | symbNumb
  | netId1 | netId2 | fmPaylen | fmHascrc
  | inCountLo | inCountHi | outCountLo | outCountHi | resyncCount | delayD
  | rBin | rEnergy | rKa | rAlt | opYm1 | opY0 | opYp1 | rK0
deriving DecidableEq, Repr

/-- Access classes (rule R21). -/
inductive Access
  /-- The host reads; writes are refused with `ERR_RO`. -/
  | ro
  /-- The host reads and writes at any time. -/
  | rw
  /-- Writes only while `STARTED = 0`, else `ERR_LOCKED`. -/
  | rwc
  /-- Writes only while `TEST = 1`, else `ERR_MODE`. -/
  | rwt
  /-- The host writes; reads return 0. -/
  | wo
deriving DecidableEq, Repr

/-- The register with a number; none for a reserved number (rule R47). -/
def regOfNumber : Nat → Option Reg
  | 0x00 => some .cfgSf
  | 0x01 => some .cfgOs
  | 0x02 => some .cfgNup
  | 0x03 => some .cfgNused
  | 0x04 => some .cfgSync0
  | 0x05 => some .cfgSync1
  | 0x06 => some .cfgFlags
  | 0x07 => some .cfgHdrsyms
  | 0x10 => some .cmd
  | 0x11 => some .status
  | 0x12 => some .inAvail
  | 0x13 => some .outCap
  | 0x14 => some .consumed
  | 0x15 => some .produced
  | 0x16 => some .tagValid
  | 0x17 => some .tagOffsetLo
  | 0x18 => some .tagOffsetHi
  | 0x19 => some .tagCfoint
  | 0x1A => some .fiFlags
  | 0x1B => some .fiPaylen
  | 0x1C => some .fiSymbnumb
  | 0x20 => some .kHat
  | 0x21 => some .lambdaCfo
  | 0x22 => some .lambdaSto
  | 0x23 => some .cfoInt
  | 0x24 => some .binPrev
  | 0x25 => some .matchCnt
  | 0x26 => some .netIdOff
  | 0x27 => some .downVal
  | 0x28 => some .symCnt
  | 0x29 => some .symbNumb
  | 0x2A => some .netId1
  | 0x2B => some .netId2
  | 0x2C => some .fmPaylen
  | 0x2D => some .fmHascrc
  | 0x2E => some .inCountLo
  | 0x2F => some .inCountHi
  | 0x30 => some .outCountLo
  | 0x31 => some .outCountHi
  | 0x32 => some .resyncCount
  | 0x33 => some .delayD
  | 0x38 => some .rBin
  | 0x39 => some .rEnergy
  | 0x3A => some .rKa
  | 0x3B => some .rAlt
  | 0x3C => some .opYm1
  | 0x3D => some .opY0
  | 0x3E => some .opYp1
  | 0x3F => some .rK0
  | _ => none

/-- The access class of a register (rules R22, R34, R36, R37, R39). -/
def Reg.access : Reg → Access
  | .cfgSf | .cfgOs | .cfgNup | .cfgNused | .cfgSync0 | .cfgSync1 | .cfgFlags | .cfgHdrsyms => .rwc
  | .cmd => .wo
  | .inAvail | .outCap | .fiFlags | .fiPaylen | .fiSymbnumb => .rw
  | .opYm1 | .opY0 | .opYp1 => .rwt
  | .status | .consumed | .produced | .tagValid | .tagOffsetLo | .tagOffsetHi | .tagCfoint
  | .kHat | .lambdaCfo | .lambdaSto | .cfoInt | .binPrev | .matchCnt | .netIdOff | .downVal | .symCnt | .symbNumb
  | .netId1 | .netId2 | .fmPaylen | .fmHascrc
  | .inCountLo | .inCountHi | .outCountLo | .outCountHi | .resyncCount | .delayD
  | .rBin | .rEnergy | .rKa | .rAlt | .rK0 => .ro

/-- How many low bits of a word a register's field takes; a write with a bit above them is refused (rules R21, R34,
R37). -/
def Reg.width : Reg → Nat
  | .cfgSf => 4
  | .cfgOs => 5
  | .cfgNup => 6
  | .cfgNused => 6
  | .cfgSync0 => 12
  | .cfgSync1 => 12
  | .cfgFlags => 2
  | .cfgHdrsyms => 16
  | .fiFlags => 2
  | .fiPaylen => 8
  | .fiSymbnumb => 16
  | .tagValid => 1
  | .fmHascrc => 1
  | .cmd | .status | .inAvail | .outCap | .consumed | .produced | .tagOffsetLo | .tagOffsetHi | .tagCfoint
  | .kHat | .lambdaCfo | .lambdaSto | .cfoInt | .binPrev | .matchCnt | .netIdOff | .downVal | .symCnt | .symbNumb
  | .netId1 | .netId2 | .fmPaylen
  | .inCountLo | .inCountHi | .outCountLo | .outCountHi | .resyncCount | .delayD
  | .rBin | .rEnergy | .rKa | .rAlt | .opYm1 | .opY0 | .opYp1 | .rK0 => 32

/-- A word fits the register's field: no bit above it is 1 (rule R63 (5)). -/
def Reg.fits (r : Reg) (w : Word) : Bool := w.toNat < 2 ^ r.width

/-- `REG[r]`: the current value of a register; `CMD` reads 0 (rules R21, R62). `NETID1` and `NETID2` have no storage (rule
R29). -/
def readReg (s : State) : Reg → Word
  | .cfgSf => s.cfg.sf.setWidth 32
  | .cfgOs => s.cfg.os.setWidth 32
  | .cfgNup => s.cfg.nup.setWidth 32
  | .cfgNused => s.cfg.nused.setWidth 32
  | .cfgSync0 => s.cfg.sync0.setWidth 32
  | .cfgSync1 => s.cfg.sync1.setWidth 32
  | .cfgFlags => s.cfg.flags.setWidth 32
  | .cfgHdrsyms => s.cfg.hdrSyms.setWidth 32
  | .cmd => 0
  | .status => statusWord s
  | .inAvail => s.mail.inAvail
  | .outCap => s.mail.outCap
  | .consumed => s.report.consumed
  | .produced => s.report.produced
  | .tagValid => flagWord s.report.tagValid
  | .tagOffsetLo => s.report.tagOffset.extractLsb' 0 32
  | .tagOffsetHi => s.report.tagOffset.extractLsb' 32 32
  | .tagCfoint => s.report.tagCfoint
  | .fiFlags => s.mail.fiFlags.setWidth 32
  | .fiPaylen => s.mail.fiPaylen.setWidth 32
  | .fiSymbnumb => s.mail.fiSymbnumb.setWidth 32
  | .kHat => s.acq.kHat
  | .lambdaCfo => s.acq.lambdaCfo
  | .lambdaSto => s.acq.lambdaSto
  | .cfoInt => s.acq.cfoInt
  | .binPrev => s.acq.binPrev
  | .matchCnt => s.acq.matchCnt
  | .netIdOff => s.acq.netIdOff
  | .downVal => s.acq.downVal
  | .symCnt => s.acq.symCnt
  | .symbNumb => s.acq.symbNumb
  | .netId1 => BitVec.ofNat 32 s.cfg.netId1
  | .netId2 => BitVec.ofNat 32 s.cfg.netId2
  | .fmPaylen => s.fmPaylen
  | .fmHascrc => flagWord s.fmHascrc
  | .inCountLo => s.count.inCount.extractLsb' 0 32
  | .inCountHi => s.count.inCount.extractLsb' 32 32
  | .outCountLo => s.count.outCount.extractLsb' 0 32
  | .outCountHi => s.count.outCount.extractLsb' 32 32
  | .resyncCount => s.count.resyncCount
  | .delayD => s.delayD
  | .rBin => s.unit.rBin
  | .rEnergy => s.unit.rEnergy
  | .rKa => s.unit.rKa
  | .rAlt => s.unit.rAlt
  | .opYm1 => s.unit.opYm1
  | .opY0 => s.unit.opY0
  | .opYp1 => s.unit.opYp1
  | .rK0 => s.unit.rK0

/-- `REG[r] <- w` for the registers a host can write (rule R63 (7)). A register of class `RO` is left alone, and a write to
`CMD` is no store: the bus executes it (rule R63 (6)). -/
def writeReg (s : State) (r : Reg) (w : Word) : State :=
  match r with
  | .cfgSf => { s with cfg := { s.cfg with sf := w.setWidth 4 } }
  | .cfgOs => { s with cfg := { s.cfg with os := w.setWidth 5 } }
  | .cfgNup => { s with cfg := { s.cfg with nup := w.setWidth 6 } }
  | .cfgNused => { s with cfg := { s.cfg with nused := w.setWidth 6 } }
  | .cfgSync0 => { s with cfg := { s.cfg with sync0 := w.setWidth 12 } }
  | .cfgSync1 => { s with cfg := { s.cfg with sync1 := w.setWidth 12 } }
  | .cfgFlags => { s with cfg := { s.cfg with flags := w.setWidth 2 } }
  | .cfgHdrsyms => { s with cfg := { s.cfg with hdrSyms := w.setWidth 16 } }
  | .inAvail => { s with mail := { s.mail with inAvail := w } }
  | .outCap => { s with mail := { s.mail with outCap := w } }
  | .fiFlags => { s with mail := { s.mail with fiFlags := w.setWidth 2 } }
  | .fiPaylen => { s with mail := { s.mail with fiPaylen := w.setWidth 8 } }
  | .fiSymbnumb => { s with mail := { s.mail with fiSymbnumb := w.setWidth 16 } }
  | .opYm1 => { s with unit := { s.unit with opYm1 := w } }
  | .opY0 => { s with unit := { s.unit with opY0 := w } }
  | .opYp1 => { s with unit := { s.unit with opYp1 := w } }
  | .cmd | .status | .consumed | .produced | .tagValid | .tagOffsetLo | .tagOffsetHi | .tagCfoint
  | .kHat | .lambdaCfo | .lambdaSto | .cfoInt | .binPrev | .matchCnt | .netIdOff | .downVal | .symCnt | .symbNumb
  | .netId1 | .netId2 | .fmPaylen | .fmHascrc
  | .inCountLo | .inCountHi | .outCountLo | .outCountHi | .resyncCount | .delayD
  | .rBin | .rEnergy | .rKa | .rAlt | .rK0 => s

/-! ### Bus addresses (rule R60) -/

/-- What address bits [23:20] select. -/
inductive BusSpace
  /-- Space 0. -/
  | reg
  /-- Spaces 1 to 8. -/
  | sample (sp : Space)
  /-- Spaces 9 to 15. -/
  | reserved
deriving DecidableEq, Repr

/-- The space of an address (rule R60). -/
def spaceOf (a : Addr) : BusSpace :=
  match (a.extractLsb' 20 4).toNat with
  | 0 => .reg
  | 1 => .sample .inbuf
  | 2 => .sample .outbuf
  | 3 => .sample .sym
  | 4 => .sample .pre
  | 5 => .sample .prec
  | 6 => .sample .up
  | 7 => .sample .down
  | 8 => .sample .corr
  | _ => .reserved

/-- The word offset of an address inside its space (rule R60). -/
def offsetOf (a : Addr) : Nat := (a.extractLsb' 0 20).toNat

/-- The address of `CMD`: space `REG`, number 0x10 (rules R37, R90). -/
def cmdAddr : Addr := 0x000010

/-- How the host may write a sample memory (rules R41, R65). -/
inductive HostAccess
  | readOnly
  | testOnly
  | always
deriving DecidableEq, Repr

/-- The last column of the table of rule R41, as rule R65 applies it. -/
def Space.hostAccess : Space → HostAccess
  | .inbuf => .always
  | .sym => .testOnly
  | .pre => .testOnly
  | .outbuf => .readOnly
  | .prec => .readOnly
  | .up => .readOnly
  | .down => .readOnly
  | .corr => .readOnly

/-! ### Vectors and bins -/

/-- A whole vector of the working length (rule R9). -/
def readVector (sp : Space) (s : State) : Except Fault (List Sample) := readElems sp (indices s.n) s

/-- `PRE[0 .. NUSED*N)` or `PREC[0 .. NUSED*N)` (rule R78 (b)). -/
def readPreamble (sp : Space) (s : State) : Except Fault (List Sample) := readElems sp (indices (s.nused * s.n)) s

/-- The reference memory `REF` selects (rule R136). -/
def refSpace : RefSel → Space
  | .down => .down
  | .up => .up

/-- "The corrected symbol" `Z[n] = SYM[n] * CORR[n]` (rules R136, R194, R200). -/
def readCorrected (s : State) : Except Fault (List Sample) := do
  let x ← readVector .sym s
  let c ← readVector .corr s
  .ok (s.nums.hadamard x c)

/-- The samples `SRC` selects (rule R136). -/
def readSource (src : SrcSel) (s : State) : Except Fault (List Sample) :=
  match src with
  | .sym => readVector .sym s
  | .symCorr => readCorrected s

end Sys2Proof.Machine
end

