-- ==== Sys2Proof/Machine/DelayBuffer.lean ====
section
/-! DEFINITION. Units `fractional_delay_buffer` and `sample_downsampler`: the commands `FDLY` and `DOWNS`
(`45_delay_buffer_and_downsampler.md`). -/

namespace Sys2Proof.Machine

variable {R : Type}

/-- The delay tap `min(round_haz(LAMBDA_STO * OS), OS - 1)` (rule R181). For a `LAMBDA_STO` that is no real number it is a
free value within the bounds rule R181 states. -/
def Num.tap (num : Num R) (lam : R) (os : Nat) : Int :=
  match num.roundHaz (num.mul lam (num.ofNat os)) with
  | some r => min r (os - 1)
  | none => max (-(os / 2 : Nat)) (min (num.tapOpen lam os) (min ((os + 1) / 2 : Nat) (os - 1)))

/-- `DELAY_D <- tap` (rules R181, R182). -/
def State.setTap (s : State) : State := { s with delayD := intWord (s.nums.tap s.acq.lambdaSto s.os) }

/-- `FDLY` (rule R182). -/
def execFdly (s : State) : Out := unitCommand (fun s => .ok s.setTap) s

/-- The indices `OS - 1 + OS*i - DELAY_D` for `i` in `0 .. N-1` (rules R78 (a), R183). -/
def downsampleIndices (os n : Nat) (d : Int) : List Int :=
  (List.range n).map fun (i : Nat) => (os : Int) - 1 + os * i - d

/-- `SYM[i] <- INBUF[OS - 1 + OS*i - DELAY_D]` (rules R183, R184). -/
def runDowns (s : State) : Except Fault State := do
  let x ← readElems .inbuf (downsampleIndices s.os s.n s.delayD.toInt) s
  .ok (s.storeElems .sym 0 x)

/-- `DOWNS` (rule R184). -/
def execDowns (s : State) : Out := unitCommand runDowns s

end Sys2Proof.Machine
end

