-- ==== Sys2Proof/Machine/Correlator.lean ====
section
/-! DEFINITION. Unit `css_symbol_correlator`: the command `DEMOD` (`41_css_symbol_correlator.md`). -/

namespace Sys2Proof.Machine

variable {R : Type}

/-- `demod(x, ref)` (rules R130, R134, R135): dechirp, transform, squared magnitudes, energy; `NOSYM` (here `none`) with
energy 0 when the energy is 0, else the peak bin. -/
def Num.demod (num : Num R) (x ref : List (Cx R)) : Option Nat × R :=
  let s := num.spectrum (num.hadamard x ref)
  let e := num.energy s
  if num.isZero e then (none, num.zero) else (some (num.argmax s), e)

/-- A correlator result in `R_BIN` and `R_ENERGY` (rules R136, R205). -/
def State.setCorrelator (s : State) (be : Option Nat × Word) : State :=
  { s with unit := { s.unit with rBin := binWord be.1, rEnergy := be.2 } }

/-- The correlator run on samples `x` against a reference memory: its result and the state it leaves (rules R136, R205). -/
def correlate (x : List Sample) (ref : RefSel) (s : State) : Except Fault (Option Nat × State) := do
  let r ← readVector (refSpace ref) s
  let be := s.nums.demod x r
  .ok (be.1, s.setCorrelator be)

/-- `DEMOD` (rule R136). -/
def execDemod (ref : RefSel) (src : SrcSel) (s : State) : Out :=
  unitCommand (fun s => do
    let x ← readSource src s
    let bs ← correlate x ref s
    .ok bs.2) s

end Sys2Proof.Machine
end

