-- ==== Sys2Proof/Machine/Interpolator.lean ====
section
/-! DEFINITION. Unit `spectral_peak_interpolator`: the command `INTERP` (`42_spectral_peak_interpolator.md`). `Interp3` and
`fold` stand in `Numerics.lean`, among the primitives of `NUM`. -/

namespace Sys2Proof.Machine

variable {R : Type}

/-- What `Peak3` finds: the peak index and the three squared magnitudes around it (rule R149). -/
structure Peak (R : Type) where
  k0 : Nat
  ym1 : R
  y0 : R
  yp1 : R
deriving DecidableEq, Repr

/-- `Peak3(S, P)` (rule R149): the peak bin and its two neighbours, circular modulo `P`. -/
def Num.peak3 (num : Num R) (s : List R) : Peak R :=
  let p := s.length
  let k0 := num.argmax s
  { k0 := k0, ym1 := s.getD ((k0 + p - 1) % p) num.zero, y0 := s.getD k0 num.zero,
    yp1 := s.getD ((k0 + 1) % p) num.zero }

/-- `ka` of a peak (rules R145, R157, R171). -/
def Num.peakCorrection (num : Num R) (p : Peak R) : R := num.interp3 p.ym1 p.y0 p.yp1

/-- An estimator leaves its peak and its sub-bin correction in `R_K0`, `OP_YM1`, `OP_Y0`, `OP_YP1`, `R_KA` (rules R39, R161,
R172, R205). -/
def State.setPeak (s : State) (p : Peak Word) (ka : Word) : State :=
  { s with unit := { s.unit with rK0 := BitVec.ofNat 32 p.k0, opYm1 := p.ym1, opY0 := p.y0, opYp1 := p.yp1, rKa := ka } }

/-- `R_KA <- Interp3(OP_YM1, OP_Y0, OP_YP1)` (rule R148). -/
def State.interpolate (s : State) : State :=
  { s with unit := { s.unit with rKa := s.nums.interp3 s.unit.opYm1 s.unit.opY0 s.unit.opYp1 } }

/-- `INTERP` (rule R148). -/
def execInterp (s : State) : Out := unitCommand (fun s => .ok s.interpolate) s

end Sys2Proof.Machine
end

