-- ==== Sys2Proof/Machine/CfoEstimator.lean ====
section
/-! DEFINITION. Unit `cfo_estimator`: the commands `CFOEST` and `CFOALT` (`43_cfo_estimator.md`). -/

namespace Sys2Proof.Machine

variable {R : Type}

/-- What the spectral-interpolation estimator produces (rules R155, R161). -/
structure CfoResult (R : Type) where
  peak : Peak R
  ka : R
  lambda : R
  /-- The CFO-corrected copy of the preamble samples read. -/
  prec : List (Cx R)
  /-- The per-symbol correction vector. -/
  corr : List (Cx R)

/-- The preamble samples dechirped, symbol after symbol, and zero-padded to double length (rule R156). -/
def Num.dechirpPreamble (num : Num R) (n : Nat) (pre down : List (Cx R)) : List (Cx R) :=
  (pre.zipIdx.map fun zm => num.cmul zm.1 (down.getD (zm.2 % n) num.czero)) ++ num.padding pre.length

/-- `CORR[n] = cis(-lambda * n / N)` for `n` in `0..N-1` (rule R160). -/
def Num.correction (num : Num R) (n : Nat) (lam : R) : List (Cx R) := (List.range n).map fun i => num.ramp lam i n

/-- `PREC[m] = PRE[m] * cis(-lambda * m / N)`, the ramp running on over the whole concatenation (rule R159). -/
def Num.correctPreamble (num : Num R) (n : Nat) (lam : R) (pre : List (Cx R)) : List (Cx R) :=
  pre.zipIdx.map fun zm => num.cmul zm.1 (num.ramp lam zm.2 n)

/-- `cfoest(PRE, DOWN, NUSED)` (rules R155 to R160), `pre` being the `NUSED * N` samples it reads. -/
def Num.cfoest (num : Num R) (n nused : Nat) (pre down : List (Cx R)) : CfoResult R :=
  let peak := num.peak3 (num.spectrum (num.dechirpPreamble n pre down))
  let ka := num.peakCorrection peak
  let lam := num.fold (num.div (num.add (num.ofNat peak.k0) ka) (num.ofNat (2 * nused)))
  { peak := peak, ka := ka, lambda := lam, prec := num.correctPreamble n lam pre, corr := num.correction n lam }

/-- The registers and memories `CFOEST` writes (rule R161). -/
def State.setCfo (s : State) (r : CfoResult Word) : State :=
  let t := ((s.setPeak r.peak r.ka).storeElems .prec 0 r.prec).storeElems .corr 0 r.corr
  { t with acq := { t.acq with lambdaCfo := r.lambda } }

/-- `CFOEST` as an action on the state (rules R161, R194). -/
def runCfoest (s : State) : Except Fault State := do
  let pre ← readPreamble .pre s
  let down ← readVector .down s
  .ok (s.setCfo (s.nums.cfoest s.n s.nused pre down))

/-- `CFOEST` (rule R161). -/
def execCfoest (s : State) : Out := unitCommand runCfoest s

/-- Symbol `i` of a preamble: its samples `i*N .. (i+1)*N` (rules R14, R162, R171). -/
def symbolAt (n : Nat) (pre : List (Cx R)) (i : Nat) : List (Cx R) := (pre.drop (i * n)).take n

/-- `cfoalt(PRE, DOWN, NUSED) -> (result, kc)` (rule R162). -/
def Num.cfoalt (num : Num R) (n nused : Nat) (pre down : List (Cx R)) : R × Nat :=
  let ys := (List.range nused).map fun i => num.dft (num.hadamard (symbolAt n pre i) down)
  let peaks := ys.map fun y => num.argmax (y.map num.sqmag)
  let heights := (ys.zip peaks).map fun yp => num.sqmag (yp.1.getD yp.2 num.czero)
  let kc := peaks.getD (num.argmax heights) 0
  let lines := ys.map fun y => y.getD kc num.czero
  let acc := (lines.zip (lines.drop 1)).foldl (fun a zw => num.cadd a (num.cmul zw.1 (num.conj zw.2))) num.czero
  (if num.isZero acc.1 && num.isZero acc.2 then num.zero else num.minus (num.argTurns acc), kc)

/-- `R_ALT <- cfoalt(…)`, `R_K0 <- kc`, and nothing else (rule R163). -/
def State.setAlt (s : State) (r : Word × Nat) : State :=
  { s with unit := { s.unit with rAlt := r.1, rK0 := BitVec.ofNat 32 r.2 } }

/-- `CFOALT` (rule R163). -/
def execCfoalt (s : State) : Out :=
  unitCommand (fun s => do
    let pre ← readPreamble .pre s
    let down ← readVector .down s
    .ok (s.setAlt (s.nums.cfoalt s.n s.nused pre down))) s

end Sys2Proof.Machine
end

