-- ==== Sys2Proof/Machine/StoEstimator.lean ====
section
/-! DEFINITION. Unit `sto_estimator`: the command `STOEST` (`44_sto_estimator.md`). -/

namespace Sys2Proof.Machine

variable {R : Type}

/-- The squared magnitudes of the symbols' doubled transforms, summed bin by bin from symbol 0 on (rule R171). -/
def Num.stoSpectrum (num : Num R) (n nused : Nat) (prec down : List (Cx R)) : List R :=
  (List.range nused).foldl
    (fun acc i => List.zipWith num.add acc
      (num.spectrum (num.hadamard (symbolAt n prec i) down ++ num.padding n)))
    (List.replicate (2 * n) num.zero)

/-- `stoest(PREC, DOWN, NUSED)` (rules R170, R171): the peak, `ka` and `lambda_sto`. -/
def Num.stoest (num : Num R) (n nused : Nat) (prec down : List (Cx R)) : Peak R × R × R :=
  let peak := num.peak3 (num.stoSpectrum n nused prec down)
  let ka := num.peakCorrection peak
  (peak, ka, num.fold (num.div (num.add (num.ofNat peak.k0) ka) (num.ofNat 2)))

/-- The registers `STOEST` writes (rule R172). -/
def State.setSto (s : State) (r : Peak Word × Word × Word) : State :=
  let t := s.setPeak r.1 r.2.1
  { t with acq := { t.acq with lambdaSto := r.2.2 } }

/-- `STOEST` as an action on the state (rules R172, R194). -/
def runStoest (s : State) : Except Fault State := do
  let prec ← readPreamble .prec s
  let down ← readVector .down s
  .ok (s.setSto (s.nums.stoest s.n s.nused prec down))

/-- `STOEST` (rule R172). -/
def execStoest (s : State) : Out := unitCommand runStoest s

end Sys2Proof.Machine
end

