-- ==== Sys2Proof/Machine/Waveform.lean ====
section
/-! DEFINITION. Unit `chirp_reference_generator`: the command `GEN` (`40_chirp_reference_generator.md`). -/

namespace Sys2Proof.Machine

variable {R : Type}

/-- The reference up-chirp of `gen(SF, os)`: `L = 2^SF * os` samples `cis(theta[n])`, `theta[n] = (n*n - n*N*os) /
(2*N*os*os)` turns (rules R120, R121). -/
def Num.upChirp (num : Num R) (sf os : Nat) : List (Cx R) :=
  let n := 2 ^ sf
  (List.range (n * os)).map fun (i : Nat) =>
    num.cis (num.ofFrac ((i : Int) * i - (i : Int) * (n * os : Nat)) (2 * n * os * os))

/-- `gen(SF, os) -> (up, down)` (rules R120 to R122, R124): the down-chirp is the stored up-chirp with the sign of each
imaginary part negated. -/
def Num.gen (num : Num R) (sf os : Nat) : List (Cx R) × List (Cx R) :=
  let up := num.upChirp sf os
  (up, up.map num.conj)

/-- `(UP, DOWN) <- gen(CFG_SF, GEN_OS)` (rules R123, R125). -/
def State.generate (s : State) : State :=
  let ud := s.nums.gen s.cfg.sf.toNat Config.genOs
  (s.storeElems .up 0 ud.1).storeElems .down 0 ud.2

/-- `GEN` (rule R123). -/
def execGen (s : State) : Out := unitCommand (fun s => .ok s.generate) s

end Sys2Proof.Machine
end

