-- ==== Sys2Proof/Machine/FrameSync.lean ====
section
/-! DEFINITION. Unit `frame_sync_state_machine`: the command `FSMSTEP` (`46_frame_sync_state_machine.md`). -/

namespace Sys2Proof.Machine

/-- `CONSUMED <- OS * v` (rules R67, R192 to R201). -/
def State.consume (s : State) (v : Int) : State := s.setConsumed (s.os * v)

/-- The matching test of `DETECT` (rule R192): both bins exist and are at most 1 apart as plain integers (rule R12). -/
def binsMatch (b : Option Nat) (prev : Word) : Bool :=
  match b with
  | none => false
  | some k => prev != nosymWord && decide (((k : Int) - prev.toInt).natAbs ≤ 1)

/-- A decoded bin passes an identifier check: it is a bin and within 1 of the identifier, as plain integers (rules R195,
R196). -/
def nearId (b : Option Nat) (id : Nat) : Bool :=
  match b with
  | none => false
  | some k => decide (((k : Int) - id).natAbs ≤ 1)

/-- The ignore set {0, 1, N-1} of identifier 1 (rules R195, R204). -/
def ignored (b : Option Nat) (n : Nat) : Bool :=
  match b with
  | none => false
  | some k => k == 0 || k == 1 || k + 1 == n

/-- The signed deviation of an accepted bin from an identifier (rules R195, R196). -/
def deviation (b : Option Nat) (id : Nat) : Int := (b.getD 0 : Int) - id

/-- The preamble tracking of `DETECT` (rule R192): the symbol goes to slot `MATCH_CNT` on a match, else to slot 0. -/
def State.track (s : State) (b : Option Nat) (x : List Sample) : State :=
  if binsMatch b s.acq.binPrev then
    let t := s.storeElems .pre (s.acq.matchCnt.toNat * s.n) x
    { t with acq := { t.acq with
        kHat := s.acq.kHat + BitVec.ofNat 32 (b.getD 0), matchCnt := s.acq.matchCnt + 1, binPrev := binWord b } }
  else
    let t := s.storeElems .pre 0 x
    { t with acq := { t.acq with kHat := BitVec.ofNat 32 (b.getD 0), matchCnt := 1, binPrev := binWord b } }

/-- The transition `DETECT` to `SYNC` (rule R193): the rounded mean of the bins, and the window moved to the next chirp
start. -/
def State.enterSync (s : State) : State :=
  let mean := roundHazFrac s.acq.kHat.toNat (s.nup - 1)
  { s with acq := { s.acq with kHat := intWord mean, state := .sync, syncPos := .netId1, estDone := false } }.consume
    (s.n - mean)

/-- Step in `DETECT` (rules R192, R193). -/
def stepDetect (s : State) : Except Fault State := do
  let x ← readVector .sym s
  let bs ← correlate x .down s
  let t := bs.2.track bs.1 x
  .ok (if t.acq.matchCnt.toNat + 1 = t.nup then t.enterSync else t.consume t.n)

/-- The prologue of every step in `SYNC` (rule R194): on first entry the estimators run, once. -/
def estimate (s : State) : Except Fault State :=
  if s.acq.estDone then .ok s
  else do
    let t ← runCfoest s
    let u ← runStoest t
    .ok u.setEstDone

/-- The prologue and the correlation of the corrected symbol against a reference (rules R194 to R196, R198). -/
def estimateAndCorrelate (ref : RefSel) (s : State) : Except Fault (Option Nat × State) := do
  let t ← estimate s
  let z ← readCorrected t
  correlate z ref t

/-- Step at `NET_ID1` (rules R194, R195): the ignore set first, then the check, then the acceptance. -/
def stepNetId1 (s : State) : Except Fault State := do
  let bs ← estimateAndCorrelate .down s
  let t := bs.2.consume s.n
  let id := s.cfg.netId1
  .ok (if ignored bs.1 s.n then t
    else if nearId bs.1 id then
      { t with acq := { t.acq with netIdOff := intWord (deviation bs.1 id), syncPos := .netId2 } }
    else t.resync .netId1)

/-- Step at `NET_ID2` (rules R194, R196): a deviation that repeats the one recorded at identifier 1 is absorbed by the
consume amount. -/
def stepNetId2 (s : State) : Except Fault State := do
  let bs ← estimateAndCorrelate .down s
  let t := bs.2
  let id := s.cfg.netId2
  let off := t.acq.netIdOff.toInt
  .ok (if nearId bs.1 id then
      { t with acq := { t.acq with syncPos := .downchirp1 } }.consume
        (if off ≠ 0 ∧ deviation bs.1 id = off then s.n - off else s.n)
    else (t.consume s.n).resync .netId2)

/-- Step at `DOWNCHIRP1` (rules R194, R197): the symbol is not examined, so the value of `Z` is not needed. -/
def stepDownchirp1 (s : State) : Except Fault State := do
  let t ← estimate s
  .ok ({ t with acq := { t.acq with syncPos := .downchirp2 } }.consume s.n)

/-- Step at `DOWNCHIRP2` (rules R194, R198): roles swapped, the result stored. -/
def stepDownchirp2 (s : State) : Except Fault State := do
  let bs ← estimateAndCorrelate .up s
  let t := bs.2
  .ok ({ t with acq := { t.acq with downVal := binWord bs.1, syncPos := .quarterDown } }.consume s.n)

/-- `CFO_INT` from the down-chirp-2 result: `floor(v/2)` below half the alphabet, `floor((v - N)/2)` from there on (rule
R199). -/
def integerCfo (v : Int) (n : Nat) : Int := if 2 * v < n then v / 2 else (v - n) / 2

/-- Step at `QUARTER_DOWN` (rules R194, R199): integer CFO, tag, regeneration of the reference chirps, transition. -/
def stepQuarterDown (s : State) : Except Fault State := do
  let t ← estimate s
  .ok (if t.acq.downVal = nosymWord then (t.consume s.n).resync .noDown
    else
      let c := integerCfo t.acq.downVal.toInt s.n
      let u := ({ t with acq := { t.acq with cfoInt := intWord c } }.emitTag (intWord c)).generate.consume ((s.n / 4 : Nat) + c)
      { u with acq := { u.acq with state := .fracCfoCorrec, symCnt := 0, symbNumb := s.cfg.hdrSyms.setWidth 32 } })

/-- Step in `FRAC_CFO_CORREC` with symbols outstanding (rule R200). -/
def stepEmit (s : State) : Except Fault State := do
  let z ← readCorrected s
  let t := (s.storeElems .outbuf 0 z).consume s.n
  .ok { t with
    report := { t.report with produced := BitVec.ofNat 32 s.n }
    acq := { t.acq with symCnt := t.acq.symCnt + 1 } }

/-- Frame end (rule R201). -/
def stepFrameEnd (s : State) : State := s.noProgress.resync .frameDone

/-- Step in `FRAC_CFO_CORREC` (rules R200, R201). -/
def stepFrac (s : State) : Except Fault State :=
  if s.acq.symCnt.toNat < s.acq.symbNumb.toNat then stepEmit s else .ok (stepFrameEnd s)

/-- The state-selected part of a step (rules R94, R191). -/
def stepCase (s : State) : Except Fault State :=
  match s.acq.state with
  | .detect => stepDetect s
  | .sync =>
    match s.acq.syncPos with
    | .netId1 => stepNetId1 s
    | .netId2 => stepNetId2 s
    | .downchirp1 => stepDownchirp1 s
    | .downchirp2 => stepDownchirp2 s
    | .quarterDown => stepQuarterDown s
  | .fracCfoCorrec => stepFrac s

/-- One step of the state machine (rules R190, R191). -/
def fsmStep (s : State) : Except Fault State := do
  let t ← stepCase s.clearReport
  .ok t.countUp

/-- `FSMSTEP` (rule R191). -/
def execFsmstep (s : State) : Out := unitCommand fsmStep s

end Sys2Proof.Machine
end

