-- ==== Sys2Proof/Machine/HostCommands.lean ====
section
/-! DEFINITION. The host-level commands `NOP`, `RESET`, `START`, `WORK`, `FRAME_INFO`, and `DRAIN`
(`47_host_commands.md`). -/

namespace Sys2Proof.Machine

/-- `NOP` (rule R221): legal in every state, and only clears `STATUS.ERR`. -/
def execNop (s : State) : Out := finish (.ok s)

/-- The block after reset; the host's bus and the implementation's numerics are no state of the block (rules R20, R222,
R270). -/
def State.resetBlock (s : State) : State := { State.reset with bus := s.bus, busData := s.busData, num := s.num }

/-- `RESET` (rule R222): legal in every state. -/
def execReset (s : State) : Out := finish (.ok s.resetBlock)

/-- The state a successful `START` leaves (rule R223): the mode, the chirp pair, the neutral context, the counters and the
report of an invocation at 0. The tag's other registers, the mailbox and the unit registers are not written. -/
def State.construct (s : State) (mode : Mode) : State :=
  let t := s.generate.storeElems .corr 0 (List.replicate s.n s.nums.cone)
  { t with
    started := true
    test := mode == .test
    acq := Acq.neutral s.cfg.hdrSyms
    delayD := 0
    count := { inCount := 0, outCount := 0, resyncCount := 0 }
    resyncCause := .none
    report := { t.report with consumed := 0, produced := 0, tagValid := false } }

/-- `START` (rules R93 (3), R223). -/
def execStart (mode : Mode) (s : State) : Out :=
  if s.started then cmdError .locked s
  else if s.cfg.valid then finish (.ok (s.construct mode))
  else cmdError .config s

/-- One event applied (rule R225): outside `FRAC_CFO_CORREC` it is dropped. -/
def State.applyEvent (s : State) (ev : Event) : State :=
  if s.acq.state = .fracCfoCorrec then
    if ev.invalid then s.resync .badHdr
    else { s with acq := { s.acq with symbNumb := ev.symbNumb.setWidth 32 }
                  fmPaylen := ev.payLen.setWidth 32
                  fmHascrc := ev.hasCrc }
  else s

/-- The event queue drained, oldest event first (rule R225). -/
def State.drainEvents (s : State) : State := s.evq.foldl State.applyEvent { s with evq := [] }

/-- `DRAIN` (rule R225). -/
def execDrain (s : State) : Out := unitCommand (fun s => .ok s.drainEvents) s

/-- Steps 2 and 3 of `WORK` (rule R224): there is input enough, and room for the block if the step will produce one. -/
def State.canProgress (s : State) : Bool :=
  decide (s.winReq ≤ s.mail.inAvail.toNat) &&
  !(s.acq.state == .fracCfoCorrec && decide (s.acq.symCnt.toNat < s.acq.symbNumb.toNat) &&
    decide (s.mail.outCap.toNat < s.n))

/-- One invocation (rule R224): drain, progress checks, delay tap, downsampler, one step of the state machine. -/
def invoke (s : State) : Except Fault State :=
  let t := s.drainEvents
  if t.canProgress then do
    let u ← runDowns t.setTap
    fsmStep u
  else .ok t.noProgress

/-- `WORK` (rule R224). -/
def execWork (s : State) : Out := hostCommand invoke s

/-- The event the mailbox registers describe (rules R98, R226). -/
def Mailbox.event (m : Mailbox) : Event :=
  { invalid := m.fiFlags.getLsbD 0, hasCrc := m.fiFlags.getLsbD 1, payLen := m.fiPaylen, symbNumb := m.fiSymbnumb }

/-- `FRAME_INFO` (rule R226): queue the event, or refuse it when the queue is full. -/
def execFrameInfo (s : State) : Out :=
  if s.started && decide (Config.evqDepth ≤ s.evq.length) then cmdError .evqFull s
  else hostCommand (fun s => .ok { s with evq := s.evq ++ [s.mail.event] }) s

end Sys2Proof.Machine
end

