-- ==== Sys2Proof/Machine/Dispatch.lean ====
section
/-! DEFINITION. One arm per command of the opcode map. -/

namespace Sys2Proof.Machine

def exec (i : Instr) (s : State) : Host.Outcome State Fault Refusal :=
  match i with
  | .nop => Sys2Proof.Machine.execNop s
  | .reset => Sys2Proof.Machine.execReset s
  | .start mode => Sys2Proof.Machine.execStart mode s
  | .work => Sys2Proof.Machine.execWork s
  | .frameInfo => Sys2Proof.Machine.execFrameInfo s
  | .gen => Sys2Proof.Machine.execGen s
  | .demod ref src => Sys2Proof.Machine.execDemod ref src s
  | .interp => Sys2Proof.Machine.execInterp s
  | .cfoest => Sys2Proof.Machine.execCfoest s
  | .cfoalt => Sys2Proof.Machine.execCfoalt s
  | .stoest => Sys2Proof.Machine.execStoest s
  | .fdly => Sys2Proof.Machine.execFdly s
  | .downs => Sys2Proof.Machine.execDowns s
  | .fsmstep => Sys2Proof.Machine.execFsmstep s
  | .drain => Sys2Proof.Machine.execDrain s

end Sys2Proof.Machine
end

