-- ==== Sys2Proof/Machine/Bus.lean ====
section
/-! DEFINITION. The bus: the host's accesses to the registers and the sample memories (`20_memory.md` rules R60 to R66),
and the write to `CMD` that executes a command (`30_encoding.md` rules R90, R93). -/

namespace Sys2Proof.Machine

/-- `BusRead(space, off)` (rules R62, R64, R66): no read has a side effect. A sample memory reads 0 before `START` and
beyond its capacity; a read of an unwritten element is the model's fault (rule R45). -/
def busRead (a : Addr) (s : State) : Except Fault Word :=
  match spaceOf a with
  | .reg =>
    match regOfNumber (offsetOf a) with
    | some r => .ok (readReg s r)
    | none => .ok 0
  | .sample sp =>
    if s.started && decide (offsetOf a < 2 * s.capacity sp) then
      match s.load sp (offsetOf a) with
      | some w => .ok w
      | none => .error (.unwritten sp)
    else .ok 0
  | .reserved => .ok 0

/-- A word written to `CMD`: a word that is no command is refused with `ERR_ILLEGAL` (rule R93 (1)), any other executes its
command, which makes the rest of the checks of rule R93. -/
def execWord (w : Word) (s : State) : Out :=
  match decode w with
  | .ok i => exec i s
  | .error _ => cmdError .illegal s

/-- A write to a register, checked in the order of rule R63 (2) to (7). -/
def writeRegister (r : Reg) (w : Word) (s : State) : Out :=
  if r.access = .ro then cmdError .ro s
  else if r.access = .rwc ∧ s.started = true then cmdError .locked s
  else if r.access = .rwt ∧ s.test = false then cmdError .mode s
  else if r.fits w = false then cmdError .value s
  else if r = .cmd then execWord w s
  else .next (writeReg s r w)

/-- A write to a sample memory, checked in the order of rule R65. -/
def writeSample (sp : Space) (off : Nat) (w : Word) (s : State) : Out :=
  if s.started = false then cmdError .notStarted s
  else if sp.hostAccess = .readOnly then cmdError .ro s
  else if sp.hostAccess = .testOnly ∧ s.test = false then cmdError .mode s
  else if 2 * s.capacity sp ≤ off then cmdError .addr s
  else .next (s.setMem sp ((s.mem sp).store off [w]))

/-- `BusWrite(space, off, w)` (rules R63, R65, R66). -/
def busWrite (a : Addr) (w : Word) (s : State) : Out :=
  match spaceOf a with
  | .reg =>
    match regOfNumber (offsetOf a) with
    | some r => writeRegister r w s
    | none => cmdError .addr s
  | .sample sp => writeSample sp (offsetOf a) w s
  | .reserved => cmdError .addr s

/-- What a read returns is on the bus afterwards. -/
def State.setBusData (s : State) (w : Word) : State := { s with busData := w }

/-- The accesses of the host that are still to come. -/
def State.setBus (s : State) (ops : List BusOp) : State := { s with bus := ops }

/-- One access of the host (rules R62 to R66). -/
def busAccess (op : BusOp) (s : State) : Out :=
  match op with
  | .read a =>
    match busRead a s with
    | .ok w => .next (s.setBusData w)
    | .error f => .fault f
  | .write a w => busWrite a w s

/-- The next access of the host is taken off the bus and performed. Between accesses the block does nothing and holds all of
its state (rules R70, R263, R273). -/
def nextAccess (s : State) : Out :=
  match s.bus with
  | [] => .next s
  | op :: rest => busAccess op (s.setBus rest)

/-- A host that writes the word `w` to `CMD` next. -/
def State.hostWrites (s : State) (w : Word) : State := s.setBus (.write cmdAddr w :: s.bus)

end Sys2Proof.Machine
end

