-- ==== Sys2Proof/Machine/Step.lean ====
section
/-! DEFINITION. The step: the block executes nothing until the host accesses it, and one step is one access (rules R10, R70,
R273). -/

namespace Sys2Proof.Machine

/-- One step: the next bus access of the host, performed to completion (rules R68, R70). -/
def step (s : State) : Host.Outcome State Fault Refusal := nextAccess s

/-- The state in which the next step runs the command word whose low `nbits` bits are `w`: the host writes it to `CMD` next
(log 1). -/
def State.withFetchWord (s : State) (nbits w : Nat) : State := s.hostWrites (BitVec.ofNat 32 (w % 2 ^ nbits))

end Sys2Proof.Machine
end

