-- ==== Sys2Proof/Reference.lean ====
section
/-! DEFINITION. The reference instance of the numerics record: exact real and complex arithmetic (`00_scope.md` rule R13,
decision D5). The units are written once, over any instance, so that what the rules say of the exact numbers can be stated of
the very functions the machine runs. Nothing here is used by the machine. -/

namespace Sys2Proof.Machine

/-- The real numbers as a number format: every operation is the exact one of rules R12 and R13. -/
noncomputable def realArith : Arith ℝ where
  ofFrac p q := (p : ℝ) / (q : ℝ)
  neg x := -x
  add x y := x + y
  sub x y := x - y
  mul x y := x * y
  div x y := x / y
  ge x y := Classical.propDecidable (x ≥ y) |>.decide
  isZero x := Classical.propDecidable (x = 0) |>.decide
  floor x := (⌊x⌋ : ℝ)
  roundHaz x := some (if x < 0 then -⌊|x| + 1 / 2⌋ else ⌊|x| + 1 / 2⌋)
  cis q := (Real.cos (2 * Real.pi * q), Real.sin (2 * Real.pi * q))
  argTurns z := Complex.arg ⟨z.1, z.2⟩ / (2 * Real.pi)
  interpGain := 406.5506497 / (64 * Real.pi)

/-- The reference instance of `NUM`. Its comparison always singles out a peak and every real number is a number, so the two
defaults are never used. -/
noncomputable def Num.exact : Num ℝ := Num.ofArith realArith (fun _ => 0) (fun _ _ => 0)

/-- `cis` of the reference instance, as a pair of reals. -/
noncomputable def exactCis (q : ℝ) : Cx ℝ := (Real.cos (2 * Real.pi * q), Real.sin (2 * Real.pi * q))

/-- The phase polynomial of rule R121: `theta[n] = (n*n - n*N*os) / (2*N*os*os)` turns. -/
noncomputable def exactTheta (sf os : ℕ) (n : ℤ) : ℝ :=
  ((n : ℝ) * n - n * (2 ^ sf : ℝ) * os) / (2 * (2 ^ sf : ℝ) * os * os)

/-- The up-chirp that carries the symbol value `v` with a constant phase `q` (rule R137 (a)): `c_v[n] = up[n] * cis(v*n/N +
q)` for `n` in `0 .. N-1`. -/
noncomputable def exactSymbol (sf v : ℕ) (q : ℝ) : List (Cx ℝ) :=
  (List.range (2 ^ sf)).map fun (n : ℕ) =>
    realArith.cmulFormula (exactCis (exactTheta sf 1 n)) (exactCis ((v : ℝ) * n / 2 ^ sf + q))

end Sys2Proof.Machine
end

