-- ==== Sys2Proof/Safety.lean ====
section
/-! DEFINITION. What the statements about the machine speak of: memory frames, the invariants of the state between bus
accesses, and the register views and tables of the spec written out by number. Nothing here is used by the machine. -/

namespace Sys2Proof.Machine

/-! ### Memory frames

`State.load s sp off` is the read of one word; a frame says where it may differ. -/

/-- Every word of every sample memory reads as before. -/
def SameMemories (s t : State) : Prop := ∀ (sp : Space) (off : Nat), t.load sp off = s.load sp off

/-- The word offset `off` lies in one of the `len` elements from element `i` on (rule R61). -/
def inElems (i len off : Nat) : Prop := 2 * i ≤ off ∧ off < 2 * (i + len)

/-- Every word reads as before, but for the elements `i .. i+len` of the memory `sp`. -/
def SameBut (s t : State) (sp : Space) (i len : Nat) : Prop :=
  ∀ (sp' : Space) (off : Nat), ¬(sp' = sp ∧ inElems i len off) → t.load sp' off = s.load sp' off

/-- The elements `i, i+1, …` of a sample memory are the samples `xs`. -/
def Holds (s : State) (sp : Space) (i : Nat) (xs : List Sample) : Prop :=
  ∀ (j : Nat) (x : Sample), xs[j]? = some x → (s.mem sp).elem ((i + j : Nat) : Int) = some x

/-- Every one of the first `n` elements of a sample memory is the sample `x`. -/
def AllEqual (s : State) (sp : Space) (n : Nat) (x : Sample) : Prop :=
  ∀ j : Nat, j < n → (s.mem sp).elem (j : Int) = some x

/-- The first `n` elements of a sample memory are written (rule R45). -/
def Written (s : State) (sp : Space) (n : Nat) : Prop := (s.mem sp).written (indices n) = true

/-- The values of the first `n` elements of a sample memory. -/
def State.vec (s : State) (sp : Space) (n : Nat) : List Sample := (s.mem sp).values (indices n)

/-- The corrected symbol `Z[n] = SYM[n] * CORR[n]` (rule R194). -/
def State.corrected (s : State) : List Sample :=
  List.zipWith s.nums.cmul (s.vec .sym s.n) (s.vec .corr s.n)

/-- A started block in `TEST` mode, which admits every command (rules R91, R253). -/
def Testing (s : State) : Prop := s.started = true ∧ s.test = true

/-! ### Canonical form of the memories -/

/-- Every sample memory is in canonical form. -/
def CanonicalMemories (s : State) : Prop := ∀ sp : Space, (s.mem sp).wf

/-! ### The invariants of rule R202 and of the registers' ranges -/

/-- A register holds `NOSYM` or a bin below `n` (rules R22, R97). -/
def binOrNosym (w : Word) (n : Nat) : Prop := w = nosymWord ∨ w.toNat < n

/-- What holds of a block that has not been started (rules R46, R93 (4), R65 (1)). -/
structure Unstarted (s : State) : Prop where
  test : s.test = false
  mems : s.mems = SampleMems.unwritten
  queue : s.evq = []
  context : s.acq = Acq.neutral 8

/-- What holds of the acquisition context in `DETECT`, in either mode (rules R23 to R27, R202 (a), (b)). -/
structure InDetect (s : State) : Prop where
  position : s.acq.syncPos = .netId1
  estDone : s.acq.estDone = false
  count : s.acq.matchCnt.toNat + 1 < s.nup
  sum : s.acq.kHat.toNat ≤ s.acq.matchCnt.toNat * (s.n - 1)
  cfoInt : s.acq.cfoInt = 0
  netIdOff : s.acq.netIdOff = 0
  downVal : s.acq.downVal = nosymWord
  symCnt : s.acq.symCnt = 0
  symbNumb : s.acq.symbNumb = s.cfg.hdrSyms.setWidth 32

/-- What holds from the transition to `SYNC` on, until the next resynchronisation (rules R23, R25, R202 (c)). -/
structure Tracked (s : State) : Prop where
  count : s.acq.matchCnt.toNat + 1 = s.nup
  mean : s.acq.kHat.toNat < s.n

/-- What holds in `SYNC` (rules R22, R26, R27, R194): before the estimators have run the position is `NET_ID1`; before
`NET_ID1` is passed there is no deviation; before `DOWNCHIRP2` is passed there is no down-chirp result. -/
structure InSync (s : State) : Prop where
  first : s.acq.estDone = false → s.acq.syncPos = .netId1
  deviation : s.acq.syncPos = .netId1 → s.acq.netIdOff = 0
  downVal : s.acq.syncPos ≠ .quarterDown → s.acq.downVal = nosymWord
  cfoInt : s.acq.cfoInt = 0
  symCnt : s.acq.symCnt = 0
  symbNumb : s.acq.symbNumb = s.cfg.hdrSyms.setWidth 32

/-- What holds in `FRAC_CFO_CORREC` (rules R32, R199, R202 (d)). -/
structure InFrac (s : State) : Prop where
  position : s.acq.syncPos = .quarterDown
  estDone : s.acq.estDone = true
  downVal : s.acq.downVal ≠ nosymWord
  cfoInt : s.acq.cfoInt = intWord (integerCfo s.acq.downVal.toInt s.n)

/-- What holds of a started block in either mode: the configuration is valid (R35), the reference chirps are those of the
configuration (R75), `CORR` and the current run of `PRE` are written (R42, R202), the registers are in their ranges (R22),
and the report and the output count are as rule R202 (e), (f) says. -/
structure Running (s : State) : Prop where
  valid : s.cfg.valid = true
  up : Holds s .up 0 (s.nums.gen s.cfg.sf.toNat 1).1
  down : Holds s .down 0 (s.nums.gen s.cfg.sf.toNat 1).2
  corr : Written s .corr s.n
  run : Written s .pre (s.acq.matchCnt.toNat * s.n)
  detect : s.acq.state = .detect → InDetect s
  tracked : s.acq.state ≠ .detect → Tracked s
  sync : s.acq.state = .sync → InSync s
  frac : s.acq.state = .fracCfoCorrec → InFrac s
  binPrev : binOrNosym s.acq.binPrev s.n
  downVal : binOrNosym s.acq.downVal s.n
  netIdOff : s.acq.netIdOff = 0 ∨ s.acq.netIdOff = 1 ∨ s.acq.netIdOff = intWord (-1)
  consumed : ∃ c : Nat, c ≤ s.n + 1 ∧ s.report.consumed.toNat = s.os * c
  produced : s.report.produced = 0 ∨ s.report.produced.toNat = s.n
  outCount : s.count.outCount.toNat % s.n = 0

/-- The protocol invariant between bus accesses, in either mode. -/
structure Protocol (s : State) : Prop where
  queue : s.evq.length ≤ Config.evqDepth
  unstarted : s.started = false → Unstarted s
  running : s.started = true → Running s

/-- A register's real number lies in `(-1/2, 1/2]` (rules R22, R24, R147); the units are `2^-149`. A word that stands for no real
number is exempt: the rules say nothing of it (log 4). -/
def fractionalWord (w : Word) : Prop :=
  F32.isFinite w = true → -(2 ^ 148 : Int) < F32.units w ∧ F32.units w ≤ 2 ^ 148

/-- Both fractional offsets are fractional. -/
def OffsetsFractional (s : State) : Prop := fractionalWord s.acq.lambdaCfo ∧ fractionalWord s.acq.lambdaSto

/-- The indices of slot `i` of `PRE` (rule R14). -/
def slotIndices (n i : Nat) : List Int := (List.range n).map fun (j : Nat) => ((i * n + j : Nat) : Int)

/-- The bin the symbol in slot `i` of `PRE` decodes to, against the block's down-chirp (rule R192). -/
def State.slotBin (s : State) (i : Nat) : Option Nat :=
  (s.nums.demod ((s.mem .pre).values (slotIndices s.n i)) (s.vec .down s.n)).1

/-- What holds of a started block in `RUN` mode while it is in `DETECT` (rules R24, R25, R202 (a), (b)): the fractional
offsets are 0 and `CORR` is all ones; `K_HAT` is the sum of the bins of the symbols in the slots of the current run, `NOSYM`
counting 0; `BIN_PREV` is the bin of the last of them. -/
structure Acquiring (s : State) : Prop where
  lambdaCfo : s.acq.lambdaCfo = 0
  lambdaSto : s.acq.lambdaSto = 0
  corr : AllEqual s .corr s.n s.nums.cone
  sum : s.acq.kHat.toNat = ((List.range s.acq.matchCnt.toNat).map fun i => (s.slotBin i).getD 0).sum
  last : s.acq.binPrev =
    if s.acq.matchCnt = 0 then nosymWord else binWord (s.slotBin (s.acq.matchCnt.toNat - 1))

/-- The invariant of `RUN` mode. -/
def RunMode (s : State) : Prop :=
  s.started = true → s.test = false → s.acq.state = .detect → Acquiring s

/-! ### The error of a command (rule R93) -/

/-- A command of level `unit` (rule R91). -/
def unitLevel : Instr → Bool
  | .nop => false
  | .reset => false
  | .start _ => false
  | .work => false
  | .frameInfo => false
  | .gen => true
  | .demod _ _ => true
  | .interp => true
  | .cfoest => true
  | .cfoalt => true
  | .stoest => true
  | .fdly => true
  | .downs => true
  | .fsmstep => true
  | .drain => true

/-- The error a decoded command raises, by the checks of rule R93 (2) to (5) in their order and then the command's own (rules
R223, R226, R242); `none` when it executes. -/
def errorOf (i : Instr) (s : State) : ErrCode :=
  if i = .nop ∨ i = .reset then .none
  else if i = .start .run ∨ i = .start .test then
    if s.started = true then .locked else if s.cfg.valid = true then .none else .config
  else if s.started = false then .notStarted
  else if unitLevel i = true ∧ s.test = false then .mode
  else if i = .frameInfo ∧ Config.evqDepth ≤ s.evq.length then .evqFull
  else .none

/-! ### The registers by number -/

/-- What each register number holds, row by row from the tables of rules R22, R34, R36, R37 and R39. -/
def registerView (s : State) : List (Nat × Word) :=
  [(0x00, s.cfg.sf.setWidth 32), (0x01, s.cfg.os.setWidth 32), (0x02, s.cfg.nup.setWidth 32),
   (0x03, s.cfg.nused.setWidth 32), (0x04, s.cfg.sync0.setWidth 32), (0x05, s.cfg.sync1.setWidth 32),
   (0x06, s.cfg.flags.setWidth 32), (0x07, s.cfg.hdrSyms.setWidth 32),
   (0x10, 0), (0x12, s.mail.inAvail), (0x13, s.mail.outCap), (0x14, s.report.consumed), (0x15, s.report.produced),
   (0x16, flagWord s.report.tagValid), (0x17, s.report.tagOffset.setWidth 32),
   (0x18, (s.report.tagOffset >>> 32).setWidth 32), (0x19, s.report.tagCfoint),
   (0x1A, s.mail.fiFlags.setWidth 32), (0x1B, s.mail.fiPaylen.setWidth 32), (0x1C, s.mail.fiSymbnumb.setWidth 32),
   (0x20, s.acq.kHat), (0x21, s.acq.lambdaCfo), (0x22, s.acq.lambdaSto), (0x23, s.acq.cfoInt), (0x24, s.acq.binPrev),
   (0x25, s.acq.matchCnt), (0x26, s.acq.netIdOff), (0x27, s.acq.downVal), (0x28, s.acq.symCnt), (0x29, s.acq.symbNumb),
   (0x2A, BitVec.ofNat 32 s.cfg.netId1), (0x2B, BitVec.ofNat 32 s.cfg.netId2),
   (0x2C, s.fmPaylen), (0x2D, flagWord s.fmHascrc),
   (0x2E, s.count.inCount.setWidth 32), (0x2F, (s.count.inCount >>> 32).setWidth 32),
   (0x30, s.count.outCount.setWidth 32), (0x31, (s.count.outCount >>> 32).setWidth 32),
   (0x32, s.count.resyncCount), (0x33, s.delayD),
   (0x38, s.unit.rBin), (0x39, s.unit.rEnergy), (0x3A, s.unit.rKa), (0x3B, s.unit.rAlt), (0x3C, s.unit.opYm1),
   (0x3D, s.unit.opY0), (0x3E, s.unit.opYp1), (0x3F, s.unit.rK0)]

/-- The values of rule R46's table, register number by register number (`STATUS` is 0x11). -/
def resetTable : List (Nat × Word) :=
  [(0x00, 7), (0x01, 1), (0x02, 8), (0x03, 7), (0x04, 0x12), (0x05, 0), (0x06, 0), (0x07, 8),
   (0x11, 0), (0x12, 0), (0x13, 0), (0x14, 0), (0x15, 0), (0x16, 0), (0x17, 0), (0x18, 0), (0x19, 0),
   (0x1A, 0), (0x1B, 0), (0x1C, 0),
   (0x20, 0), (0x21, 0), (0x22, 0), (0x23, 0), (0x25, 0), (0x26, 0), (0x28, 0),
   (0x24, 0xFFFFFFFF), (0x27, 0xFFFFFFFF), (0x29, 8), (0x2A, 8), (0x2B, 16), (0x2C, 0), (0x2D, 0),
   (0x2E, 0), (0x2F, 0), (0x30, 0), (0x31, 0), (0x32, 0), (0x33, 0),
   (0x38, 0), (0x39, 0), (0x3A, 0), (0x3B, 0), (0x3C, 0), (0x3D, 0), (0x3E, 0), (0x3F, 0)]

/-- The access class and the width of the field of every register, by number (rules R22, R34, R36, R37, R39); `CMD` (0x10)
executes a command instead and has no row. -/
def registerClasses : List (Nat × Access × Nat) :=
  [(0x00, .rwc, 4), (0x01, .rwc, 5), (0x02, .rwc, 6), (0x03, .rwc, 6), (0x04, .rwc, 12), (0x05, .rwc, 12), (0x06, .rwc, 2),
   (0x07, .rwc, 16),
   (0x12, .rw, 32), (0x13, .rw, 32), (0x1A, .rw, 2), (0x1B, .rw, 8), (0x1C, .rw, 16),
   (0x3C, .rwt, 32), (0x3D, .rwt, 32), (0x3E, .rwt, 32),
   (0x11, .ro, 32), (0x14, .ro, 32), (0x15, .ro, 32), (0x16, .ro, 1), (0x17, .ro, 32), (0x18, .ro, 32), (0x19, .ro, 32),
   (0x20, .ro, 32), (0x21, .ro, 32), (0x22, .ro, 32), (0x23, .ro, 32), (0x24, .ro, 32), (0x25, .ro, 32), (0x26, .ro, 32),
   (0x27, .ro, 32), (0x28, .ro, 32), (0x29, .ro, 32), (0x2A, .ro, 32), (0x2B, .ro, 32), (0x2C, .ro, 32), (0x2D, .ro, 1),
   (0x2E, .ro, 32), (0x2F, .ro, 32), (0x30, .ro, 32), (0x31, .ro, 32), (0x32, .ro, 32), (0x33, .ro, 32),
   (0x38, .ro, 32), (0x39, .ro, 32), (0x3A, .ro, 32), (0x3B, .ro, 32), (0x3F, .ro, 32)]

/-- The host may write a register of the class now (rules R21, R63 (2) to (4)). -/
def Access.admits (c : Access) (s : State) : Prop :=
  c = .rw ∨ (c = .rwc ∧ s.started = false) ∨ (c = .rwt ∧ s.test = true)

/-- The error with which a write to a register of the class is refused while it does not admit it (rule R63 (2) to (4)). -/
def Access.refusal : Access → ErrCode
  | .ro => .ro
  | .rwc => .locked
  | .rwt => .mode
  | .rw => .none
  | .wo => .none

/-- The address of a register number, and of a word offset in a sample memory (rule R60). -/
def regAddr (r : Nat) : Addr := BitVec.ofNat 24 r

/-- The number of a sample memory's space (rule R60). -/
def Space.number : Space → Nat
  | .inbuf => 1
  | .outbuf => 2
  | .sym => 3
  | .pre => 4
  | .prec => 5
  | .up => 6
  | .down => 7
  | .corr => 8

/-- The address of word `off` of a sample memory (rule R60). -/
def sampleAddr (sp : Space) (off : Nat) : Addr := BitVec.ofNat 24 (sp.number * 2 ^ 20 + off)

/-- An address of a reserved space (9 to 15) or of a reserved register number (rules R47, R60, R66). -/
def reservedAddr (a : Addr) : Prop :=
  9 * 2 ^ 20 ≤ a.toNat ∨
  (0x08 ≤ a.toNat ∧ a.toNat ≤ 0x0F) ∨ (0x1D ≤ a.toNat ∧ a.toNat ≤ 0x1F) ∨
  (0x34 ≤ a.toNat ∧ a.toNat ≤ 0x37) ∨ (0x40 ≤ a.toNat ∧ a.toNat ≤ 0xFFFFF)

/-! ### The transition table (rule R203) -/

/-- The bin the correlator left in `R_BIN` is within 1 of an identifier, as plain integers (rules R195, R196, R205). -/
def near (bin : Word) (id : Nat) : Prop := bin ≠ nosymWord ∧ ((bin.toNat : Int) - id).natAbs ≤ 1

/-- The state `t` is back at the beginning of `DETECT`, for the reason `c`. -/
structure Resynchronised (s t : State) (c : Cause) : Prop where
  state : t.acq.state = .detect
  position : t.acq.syncPos = .netId1
  cause : t.resyncCause = c
  count : t.count.resyncCount = s.count.resyncCount + 1

/-- No resynchronisation: the sequencer is at `(x, p)` and cause and count are as they were. -/
structure MovedTo (s t : State) (x : SyncState) (p : SyncPos) : Prop where
  state : t.acq.state = x
  position : t.acq.syncPos = p
  cause : t.resyncCause = s.resyncCause
  count : t.count.resyncCount = s.count.resyncCount

/-- `CONSUMED = OS * c` and `PRODUCED = p`. -/
def reports (t : State) (c : Int) (p : Nat) : Prop :=
  t.report.consumed = intWord (t.os * c) ∧ t.report.produced = BitVec.ofNat 32 p

/-- One row of the table of rule R203 for a step of the state machine from `s` to `t`, the decoded bin being the one the step
leaves in `R_BIN` (rule R205). -/
inductive Transition (s t : State) : Prop
  | detectOn (h : s.acq.state = .detect) (c : t.acq.matchCnt.toNat + 1 ≠ s.nup)
      (m : MovedTo s t .detect s.acq.syncPos) (r : reports t s.n 0)
  | detectDone (h : s.acq.state = .detect) (c : t.acq.matchCnt.toNat + 1 = s.nup)
      (m : MovedTo s t .sync .netId1) (r : reports t (s.n - t.acq.kHat.toInt) 0)
  | netId1Ignored (h : s.acq.state = .sync) (p : s.acq.syncPos = .netId1)
      (b : t.unit.rBin = 0 ∨ t.unit.rBin = 1 ∨ t.unit.rBin.toNat + 1 = s.n)
      (m : MovedTo s t .sync .netId1) (r : reports t s.n 0)
  | netId1Failed (h : s.acq.state = .sync) (p : s.acq.syncPos = .netId1)
      (i : ¬(t.unit.rBin = 0 ∨ t.unit.rBin = 1 ∨ t.unit.rBin.toNat + 1 = s.n))
      (b : ¬near t.unit.rBin s.cfg.netId1) (m : Resynchronised s t .netId1) (r : reports t s.n 0)
  | netId1Passed (h : s.acq.state = .sync) (p : s.acq.syncPos = .netId1)
      (i : ¬(t.unit.rBin = 0 ∨ t.unit.rBin = 1 ∨ t.unit.rBin.toNat + 1 = s.n))
      (b : near t.unit.rBin s.cfg.netId1) (m : MovedTo s t .sync .netId2) (r : reports t s.n 0)
  | netId2Failed (h : s.acq.state = .sync) (p : s.acq.syncPos = .netId2)
      (b : ¬near t.unit.rBin s.cfg.netId2) (m : Resynchronised s t .netId2) (r : reports t s.n 0)
  | netId2Repeats (h : s.acq.state = .sync) (p : s.acq.syncPos = .netId2)
      (b : near t.unit.rBin s.cfg.netId2) (o : s.acq.netIdOff ≠ 0)
      (d : (t.unit.rBin.toNat : Int) - s.cfg.netId2 = s.acq.netIdOff.toInt)
      (m : MovedTo s t .sync .downchirp1) (r : reports t (s.n - s.acq.netIdOff.toInt) 0)
  | netId2Passed (h : s.acq.state = .sync) (p : s.acq.syncPos = .netId2)
      (b : near t.unit.rBin s.cfg.netId2)
      (d : s.acq.netIdOff = 0 ∨ (t.unit.rBin.toNat : Int) - s.cfg.netId2 ≠ s.acq.netIdOff.toInt)
      (m : MovedTo s t .sync .downchirp1) (r : reports t s.n 0)
  | downchirp1 (h : s.acq.state = .sync) (p : s.acq.syncPos = .downchirp1)
      (m : MovedTo s t .sync .downchirp2) (r : reports t s.n 0)
  | downchirp2 (h : s.acq.state = .sync) (p : s.acq.syncPos = .downchirp2)
      (m : MovedTo s t .sync .quarterDown) (r : reports t s.n 0)
  | quarterDownFailed (h : s.acq.state = .sync) (p : s.acq.syncPos = .quarterDown) (v : s.acq.downVal = nosymWord)
      (m : Resynchronised s t .noDown) (r : reports t s.n 0)
  | quarterDownPassed (h : s.acq.state = .sync) (p : s.acq.syncPos = .quarterDown) (v : s.acq.downVal ≠ nosymWord)
      (m : MovedTo s t .fracCfoCorrec .quarterDown) (r : reports t ((s.n / 4 : Nat) + t.acq.cfoInt.toInt) 0)
  | emitted (h : s.acq.state = .fracCfoCorrec) (c : s.acq.symCnt.toNat < s.acq.symbNumb.toNat)
      (m : MovedTo s t .fracCfoCorrec s.acq.syncPos) (r : reports t s.n s.n)
  | frameEnd (h : s.acq.state = .fracCfoCorrec) (c : s.acq.symbNumb.toNat ≤ s.acq.symCnt.toNat)
      (m : Resynchronised s t .frameDone) (r : reports t 0 0)

/-- The last row of the table of rule R203: the events drained in `s` bring an invalid header while a frame is in progress,
and the block is back in `DETECT`; otherwise the drain leaves the sequencer where it is. -/
def DrainTransition (s t : State) : Prop :=
  (s.acq.state = .fracCfoCorrec ∧ (∃ e ∈ s.evq, e.invalid = true) ∧ Resynchronised s t .badHdr) ∨
  (¬(s.acq.state = .fracCfoCorrec ∧ ∃ e ∈ s.evq, e.invalid = true) ∧ MovedTo s t s.acq.state s.acq.syncPos)

end Sys2Proof.Machine
end

