-- ==== Sys2Proof/Certificates/Slice0/Obligations.lean ====
section
/-! DEFINITION. The statements about the machine, in the order of the spec: the encoding, the bus, errors and modes, the
host-level commands, the units, the state machine, resynchronisation, the whole machine, and the reference numerics.

A statement about a result that the numerics record `NUM` computes names the record's own primitives (`s.nums`), so it holds
of both word instances and rests on the values of neither. -/

open Sys2Proof Sys2Proof.Machine

/-! ### Encoding -/

/-- The decoder and the encoder agree on every word and every command (rules R90 to R93). -/
def Obligations.DecodedWordsAreExactlyTheEncodings : Prop :=
  ∀ (w : Word) (i : Instr), decode w = .ok i ↔ i.wf = true ∧ w = encode i

/-- The nineteen command words of rule R102. -/
def Obligations.CommandWordsAreAsListed : Prop :=
  decode 0x00000000 = .ok .nop ∧ decode 0x00000001 = .ok .reset ∧ decode 0x00000002 = .ok (.start .run) ∧
  decode 0x00000102 = .ok (.start .test) ∧ decode 0x00000003 = .ok .work ∧ decode 0x00000004 = .ok .frameInfo ∧
  decode 0x00000010 = .ok .gen ∧ decode 0x00000011 = .ok (.demod .down .sym) ∧
  decode 0x00000111 = .ok (.demod .up .sym) ∧ decode 0x00000211 = .ok (.demod .down .symCorr) ∧
  decode 0x00000311 = .ok (.demod .up .symCorr) ∧ decode 0x00000012 = .ok .interp ∧
  decode 0x00000013 = .ok .cfoest ∧ decode 0x00000014 = .ok .cfoalt ∧ decode 0x00000015 = .ok .stoest ∧
  decode 0x00000016 = .ok .fdly ∧ decode 0x00000017 = .ok .downs ∧ decode 0x00000018 = .ok .fsmstep ∧
  decode 0x00000019 = .ok .drain

/-! ### The step and the bus -/

/-- A step runs the decoded command: when the host's next access writes a word to `CMD` that decodes to `i`, the step is `exec`
of `i`, the access being taken off the bus (rules R63 (6), R90, R93). The list of accesses to come is the model's own field (log
1). -/
def Obligations.StepRunsTheDecodedCommand : Prop :=
  ∀ (s : State) (rest : List BusOp) (w : Word) (i : Instr),
    s.bus = .write cmdAddr w :: rest → decode w = .ok i → step s = exec i (s.setBus rest)

/-- The words that decode are those that pass the three checks of rule R93 (1), written from the opcode map and not from the
decoder; any other word written to `CMD` changes nothing but `STATUS.ERR` (rules R93 (1), R95, R241). -/
def Obligations.IllegalWordsSetOnlyTheErrorCode : Prop :=
  (∀ w : Word, legalWord w = true ↔ ∃ i : Instr, decode w = .ok i) ∧
  ∀ (s : State) (rest : List BusOp) (w : Word),
    s.bus = .write cmdAddr w :: rest → legalWord w = false →
      step s = .next { s with bus := rest, err := .illegal }

/-- Reserved spaces and reserved register numbers: a read returns 0, a write is refused with `ERR_ADDR` (rules R47, R66). -/
def Obligations.ReservedAddressesReadZeroAndRefuseWrites : Prop :=
  ∀ (s : State) (rest : List BusOp) (a : Addr), reservedAddr a →
    (s.bus = .read a :: rest → step s = .next { s with bus := rest, busData := 0 }) ∧
    ∀ w : Word, s.bus = .write a w :: rest → step s = .next { s with bus := rest, err := .addr }

/-- Every register but `STATUS` reads, by its number, as the tables say, and reading changes nothing (rules R22, R34, R37, R39,
R62). -/
def Obligations.RegistersReadByNumber : Prop :=
  ∀ (s : State) (rest : List BusOp) (r : Nat) (v : Word), (r, v) ∈ registerView s → s.bus = .read (regAddr r) :: rest →
    step s = .next { s with bus := rest, busData := v }

/-- `STATUS` and its fields (rules R36, R96, R99). -/
def Obligations.StatusFieldsAreInTheirPlaces : Prop :=
  ∀ (s : State) (rest : List BusOp), s.bus = .read (regAddr 0x11) :: rest → s.evq.length ≤ Config.evqDepth →
    ∃ w : Word, step s = .next { s with bus := rest, busData := w } ∧
      w.getLsbD 0 = s.started ∧ w.getLsbD 1 = s.test ∧
      (w.extractLsb' 2 2).toNat =
        (match s.acq.state with | .detect => 0 | .sync => 1 | .fracCfoCorrec => 2) ∧
      (w.extractLsb' 4 3).toNat =
        (match s.acq.syncPos with
         | .netId1 => 0 | .netId2 => 1 | .downchirp1 => 2 | .downchirp2 => 3 | .quarterDown => 4) ∧
      w.getLsbD 7 = s.acq.estDone ∧
      (w.extractLsb' 8 4).toNat =
        (match s.err with
         | .none => 0 | .illegal => 1 | .mode => 2 | .notStarted => 3 | .locked => 4 | .config => 5 | .evqFull => 6
         | .ro => 7 | .addr => 8 | .value => 9) ∧
      (w.extractLsb' 12 4).toNat =
        (match s.resyncCause with
         | .none => 0 | .netId1 => 1 | .netId2 => 2 | .badHdr => 3 | .frameDone => 4 | .noDown => 5) ∧
      (w.extractLsb' 16 3).toNat = s.evq.length ∧ (w.extractLsb' 19 13) = 0

/-- A write to a register is refused by the checks of rule R63 (2) to (5) in their order, and changes nothing but `STATUS.ERR`. -/
def Obligations.RefusedRegisterWritesSetOnlyTheErrorCode : Prop :=
  ∀ (s : State) (rest : List BusOp) (r : Nat) (c : Access) (k : Nat) (w : Word), (r, c, k) ∈ registerClasses →
    s.bus = .write (regAddr r) w :: rest →
      (¬c.admits s → step s = .next { s with bus := rest, err := c.refusal }) ∧
      (c.admits s → 2 ^ k ≤ w.toNat → step s = .next { s with bus := rest, err := .value })

/-- A write that passes the checks stores the word in its register and changes no other register (the two views of rule R29
apart, which follow the configuration), no memory, nothing of the queue and not `STATUS` (rules R21, R63 (7)). -/
def Obligations.AcceptedRegisterWritesStoreTheWord : Prop :=
  ∀ (s : State) (rest : List BusOp) (r : Nat) (c : Access) (k : Nat) (w : Word), (r, c, k) ∈ registerClasses →
    s.bus = .write (regAddr r) w :: rest → c.admits s → w.toNat < 2 ^ k →
      ∃ t : State, step s = .next t ∧ (r, w) ∈ registerView t ∧
        (∀ (r' : Nat) (v : Word), (r', v) ∈ registerView s → r' ≠ r → r' ≠ 0x2A → r' ≠ 0x2B → (r', v) ∈ registerView t) ∧
        statusWord t = statusWord s ∧ t.started = s.started ∧ t.test = s.test ∧ t.err = s.err ∧ t.acq = s.acq ∧
        t.mems = s.mems ∧ t.evq = s.evq ∧ t.num = s.num ∧ t.busData = s.busData ∧ t.bus = rest

/-- A configuration is valid exactly when its fields are in the ranges of rules R34 and R35; `NETID1` and `NETID2` follow it by
rule R30, and a valid one gives identifiers below `N` (rule R35). -/
def Obligations.ValidConfigurationsAndTheirIdentifiers : Prop :=
  ∀ c : Cfg,
    (c.valid = true ↔
      (7 ≤ c.sf.toNat ∧ c.sf.toNat ≤ 12) ∧ (1 ≤ c.os.toNat ∧ c.os.toNat ≤ 16) ∧ (3 ≤ c.nup.toNat ∧ c.nup.toNat ≤ 32) ∧
      (1 ≤ c.nused.toNat ∧ (c.nused.toNat : Int) ≤ c.nup.toNat - 1) ∧ 1 ≤ c.hdrSyms.toNat ∧
      (c.flags.getLsbD 0 = false → c.sync0.toNat ≤ 0xFF) ∧
      (c.flags.getLsbD 0 = true → c.sync0.toNat < 2 ^ c.sf.toNat ∧ c.sync1.toNat < 2 ^ c.sf.toNat)) ∧
    (c.flags.getLsbD 0 = false →
      c.netId1 = (c.sync0.toNat / 16 % 16) * 8 ∧ c.netId2 = (c.sync0.toNat % 16) * 8) ∧
    (c.flags.getLsbD 0 = true → c.netId1 = c.sync0.toNat ∧ c.netId2 = c.sync1.toNat) ∧
    (c.valid = true → c.netId1 < 2 ^ c.sf.toNat ∧ c.netId2 < 2 ^ c.sf.toNat)

/-- A read of a sample memory (rule R64): 0 before `START` and beyond the capacity, else the word; an element nothing has
written is the model's fault (rule R45, log 6). The capacities are those of rule R41's table. -/
def Obligations.SampleReadsReturnTheStoredWord : Prop :=
  (∀ s : State,
    let n := 2 ^ s.cfg.sf.toNat
    s.capacity .inbuf = s.cfg.os.toNat * (n + 2) ∧ s.capacity .outbuf = n ∧ s.capacity .sym = n ∧
    s.capacity .pre = (s.cfg.nup.toNat - 1) * n ∧ s.capacity .prec = s.cfg.nused.toNat * n ∧
    s.capacity .up = n ∧ s.capacity .down = n ∧ s.capacity .corr = n) ∧
  ∀ (s : State) (rest : List BusOp) (sp : Space) (off : Nat), off < 2 ^ 20 → s.bus = .read (sampleAddr sp off) :: rest →
    (s.started = false ∨ 2 * s.capacity sp ≤ off → step s = .next { s with bus := rest, busData := 0 }) ∧
    (s.started = true → off < 2 * s.capacity sp →
      (∀ w : Word, s.load sp off = some w → step s = .next { s with bus := rest, busData := w }) ∧
      (s.load sp off = none → step s = .fault (.unwritten sp)))

/-- A write to a sample memory: the checks of rule R65 in their order, and the word stored when all of them pass. -/
def Obligations.SampleWritesAreCheckedThenStored : Prop :=
  ∀ (s : State) (rest : List BusOp) (sp : Space) (off : Nat) (w : Word), off < 2 ^ 20 →
    s.bus = .write (sampleAddr sp off) w :: rest →
      (s.started = false → step s = .next { s with bus := rest, err := .notStarted }) ∧
      (s.started = true → (sp = .outbuf ∨ sp = .prec ∨ sp = .up ∨ sp = .down ∨ sp = .corr) →
        step s = .next { s with bus := rest, err := .ro }) ∧
      (s.started = true → (sp = .sym ∨ sp = .pre) → s.test = false →
        step s = .next { s with bus := rest, err := .mode }) ∧
      (s.started = true → (sp = .inbuf ∨ ((sp = .sym ∨ sp = .pre) ∧ s.test = true)) →
        (2 * s.capacity sp ≤ off → step s = .next { s with bus := rest, err := .addr }) ∧
        (off < 2 * s.capacity sp →
          ∃ t : State, step s = .next t ∧ t = { s with bus := rest, mems := t.mems } ∧ t.load sp off = some w ∧
            ∀ (sp' : Space) (off' : Nat), (sp', off') ≠ (sp, off) → t.load sp' off' = s.load sp' off'))

/-! ### Errors and modes -/

/-- Which error each command raises, in the order of rule R93, and that a command that raises none executes and clears
`STATUS.ERR`. -/
def Obligations.CommandErrorsFollowTheOrderOfChecks : Prop :=
  ∀ (i : Instr) (s : State),
    (errorOf i s ≠ .none → exec i s = .next { s with err := errorOf i s }) ∧
    (errorOf i s = .none → ∀ t : State, exec i s = .next t → t.err = .none)

/-- Errors are precise (rule R241): an access that leaves a new error code has changed nothing else. -/
def Obligations.ErrorsChangeNothingElse : Prop :=
  ∀ s t : State, step s = .next t → t.err ≠ s.err → t.err ≠ .none → t = { s with bus := s.bus.tail, err := t.err }

/-- Mode and configuration are fixed from `START` to `RESET` (rules R33, R34, R253, R258): an access to a started block leaves
both alone unless it writes the word of `RESET` to `CMD`. -/
def Obligations.ModeAndConfigurationChangeOnlyByReset : Prop :=
  ∀ s t : State, step s = .next t → s.started = true →
    (t.started = true ∧ t.test = s.test ∧ t.cfg = s.cfg) ∨
    (s.bus.head? = some (.write cmdAddr 0x00000001) ∧ t.started = false ∧ t.test = false ∧ t.cfg = Cfg.reset)

/-! ### Reset and the host-level commands -/

/-- The reset state, register by register (rule R46), and that `RESET` completes in every state of the block and leaves it (rules
R222, R270). What is still on the bus, the data of the last read and the implementation's numerics are no state of the block and
the model keeps them over `RESET` (log 1, log 2). -/
def Obligations.ResetLeavesTheTabledValues : Prop :=
  (∀ (r : Nat) (v : Word), (r, v) ∈ resetTable → busRead (regAddr r) State.reset = .ok v) ∧
  (∀ (sp : Space) (off : Nat), State.reset.load sp off = none) ∧ State.reset.evq = [] ∧
  State.reset.started = false ∧ State.reset.test = false ∧ State.reset.acq.state = .detect ∧
  State.reset.acq.syncPos = .netId1 ∧ State.reset.acq.estDone = false ∧ State.reset.err = .none ∧
  State.reset.resyncCause = .none ∧
  ∀ s : State, exec .reset s = .next { State.reset with bus := s.bus, busData := s.busData, num := s.num }

/-- `NOP` is the word 0; every other word with that opcode is illegal; it completes in every state and only clears
`STATUS.ERR` (rule R221). -/
def Obligations.NopOnlyClearsTheErrorCode : Prop :=
  encode .nop = 0 ∧ (∀ w : Word, w.extractLsb' 0 8 = 0 → w ≠ 0 → legalWord w = false) ∧
  ∀ s : State, exec .nop s = .next { s with err := .none }

/-- `START` on a valid configuration completes: the mode, the neutral context, the counters and the report at 0, the chirp pair,
`CORR` all ones; nothing else changes (rule R223). -/
def Obligations.StartConstructsTheBlock : Prop :=
  ∀ (s : State) (m : Mode), s.started = false → s.cfg.valid = true →
    ∃ t : State, exec (.start m) s = .next t ∧
      t = { s with
        started := true, test := (m == .test), err := .none, resyncCause := .none
        acq := {
          state := .detect, syncPos := .netId1, estDone := false, kHat := 0, lambdaCfo := 0, lambdaSto := 0, cfoInt := 0
          binPrev := 0xFFFFFFFF, matchCnt := 0, netIdOff := 0, downVal := 0xFFFFFFFF, symCnt := 0
          symbNumb := s.cfg.hdrSyms.setWidth 32 }
        delayD := 0
        count := { inCount := 0, outCount := 0, resyncCount := 0 }
        report := { s.report with consumed := 0, produced := 0, tagValid := false }
        mems := t.mems } ∧
      Holds t .up 0 (s.nums.gen s.cfg.sf.toNat 1).1 ∧ Holds t .down 0 (s.nums.gen s.cfg.sf.toNat 1).2 ∧
      AllEqual t .corr s.n s.nums.cone ∧
      ∀ (sp : Space) (off : Nat), ¬((sp = .up ∨ sp = .down ∨ sp = .corr) ∧ off < 2 * s.n) → t.load sp off = s.load sp off

/-- `FRAME_INFO` with room in the queue completes: it queues the event the mailbox registers describe, and nothing else changes
(rules R98, R226). -/
def Obligations.FrameInfoQueuesTheMailboxEvent : Prop :=
  ∀ s : State, s.started = true → s.evq.length < Config.evqDepth →
    exec .frameInfo s = .next { s with
      err := .none
      evq := s.evq ++ [{ invalid := s.mail.fiFlags.getLsbD 0, hasCrc := s.mail.fiFlags.getLsbD 1
                         payLen := s.mail.fiPaylen, symbNumb := s.mail.fiSymbnumb }] }

/-- `DRAIN` completes and empties the queue (rules R225, R246). Outside a frame every event is dropped. In a frame, valid events
take effect in their order, so the last of them stands; an invalid header resynchronises, and the events behind it are
dropped. -/
def Obligations.DrainAppliesEventsOfTheFrameInProgress : Prop :=
  ∀ s : State, Testing s →
    (s.acq.state ≠ .fracCfoCorrec ∨ s.evq = [] → exec .drain s = .next { s with evq := [], err := .none }) ∧
    (∀ (evs : List Event) (e : Event), s.acq.state = .fracCfoCorrec → s.evq = evs ++ [e] →
      (∀ x ∈ s.evq, x.invalid = false) →
      exec .drain s = .next { s with
        evq := [], err := .none, acq := { s.acq with symbNumb := e.symbNumb.setWidth 32 }
        fmPaylen := e.payLen.setWidth 32, fmHascrc := e.hasCrc }) ∧
    (∀ (evs post : List Event) (e : Event), s.acq.state = .fracCfoCorrec → s.evq = evs ++ e :: post →
      (∀ x ∈ evs, x.invalid = false) → e.invalid = true →
      exec .drain s = .next { State.resync { s with
        evq := []
        fmPaylen := ((evs.getLast?.map fun x => x.payLen.setWidth 32).getD s.fmPaylen)
        fmHascrc := ((evs.getLast?.map fun x => x.hasCrc).getD s.fmHascrc) } .badHdr with err := .none })

/-- `WORK` without enough input, or without room for the block it would produce, completes and reports no progress; only the
drain has taken effect (rule R224, steps 2 and 3). -/
def Obligations.WorkWithoutProgressReportsZero : Prop :=
  ∀ s : State, s.started = true →
    let d := s.drainEvents
    (d.mail.inAvail.toNat < s.os * (s.n + 2) ∨
      (d.acq.state = .fracCfoCorrec ∧ d.acq.symCnt.toNat < d.acq.symbNumb.toNat ∧ d.mail.outCap.toNat < s.n)) →
    exec .work s = .next { d with
      err := .none, report := { d.report with consumed := 0, produced := 0, tagValid := false } }

/-- `WORK` with input and room enough is the sequence `drain`, `fdly`, `downs`, `fsmstep` of unit commands (rules R101, R224):
the state it leaves is the one they leave in `TEST` mode, but for the mode itself. -/
def Obligations.WorkIsTheSequenceOfUnitCommands : Prop :=
  ∀ s a b c t : State, s.started = true →
    exec .drain { s with test := true } = .next a →
    s.os * (s.n + 2) ≤ a.mail.inAvail.toNat →
    ¬(a.acq.state = .fracCfoCorrec ∧ a.acq.symCnt.toNat < a.acq.symbNumb.toNat ∧ a.mail.outCap.toNat < s.n) →
    exec .fdly a = .next b → exec .downs b = .next c → exec .fsmstep c = .next t →
    exec .work s = .next { t with test := s.test }

/-- `WORK` completes whenever the block is as the protocol leaves it and the window is written: the drain completes, and where the
progress checks pass, so do the tap, the downsampler and the step, and `WORK` leaves what they leave. So no run of it in `RUN`
mode reads an element nothing has written (rules R45, R185, R224, R272, R275). -/
def Obligations.WorkCompletesOnAWrittenWindow : Prop :=
  ∀ s : State, s.started = true → Protocol s → OffsetsFractional s → Written s .inbuf (s.os * (s.n + 2)) →
    ∃ a : State, exec .drain { s with test := true } = .next a ∧
      (a.mail.inAvail.toNat < s.os * (s.n + 2) ∨
          (a.acq.state = .fracCfoCorrec ∧ a.acq.symCnt.toNat < a.acq.symbNumb.toNat ∧ a.mail.outCap.toNat < s.n) →
        exec .work s = .next { a with
          test := s.test, report := { a.report with consumed := 0, produced := 0, tagValid := false } }) ∧
      (s.os * (s.n + 2) ≤ a.mail.inAvail.toNat →
        ¬(a.acq.state = .fracCfoCorrec ∧ a.acq.symCnt.toNat < a.acq.symbNumb.toNat ∧ a.mail.outCap.toNat < s.n) →
        ∃ b c t : State, exec .fdly a = .next b ∧ exec .downs b = .next c ∧ exec .fsmstep c = .next t ∧
          exec .work s = .next { t with test := s.test })

/-! ### The units -/

/-- `GEN` completes: the chirp pair of rules R121 and R122, sample by sample, `DOWN` being `UP` with the sign of the stored
imaginary word flipped; no register changes (rule R123). That the exact angle is rounded once before `cis` is the model's choice
(log 12), and so is that the flip of rule R122 leaves -0.0 where the imaginary word is +0.0 (log 10). -/
def Obligations.GenWritesTheChirpPair : Prop :=
  ∀ s : State, Testing s →
    let up := fun (i : Nat) => s.nums.cis (s.nums.ofFrac ((i : Int) * i - (i : Int) * s.n) (2 * s.n))
    ∃ t : State, exec .gen s = .next t ∧ t = { s with mems := t.mems, err := .none } ∧
      (∀ i : Nat, i < s.n → (t.mem .up).elem i = some (up i) ∧
        (t.mem .down).elem i = some ((up i).1, (up i).2 ^^^ (0x80000000 : Word))) ∧
      ∀ (sp : Space) (off : Nat), ¬((sp = .up ∨ sp = .down) ∧ off < 2 * s.n) → t.load sp off = s.load sp off

/-- `DEMOD` completes in each of its four forms: `R_BIN` and `R_ENERGY` from the transform of the dechirped samples, -1 and 0
when the energy is 0; no memory and no other register changes (rules R134, R136). -/
def Obligations.DemodLeavesThePeakBinAndTheEnergy : Prop :=
  ∀ (s : State) (ref : RefSel) (src : SrcSel), Testing s → Written s .sym s.n → (src = .symCorr → Written s .corr s.n) →
    Written s (match ref with | .down => .down | .up => .up) s.n →
    let x := match src with
      | .sym => s.vec .sym s.n
      | .symCorr => s.corrected
    let z := List.zipWith s.nums.cmul x (s.vec (match ref with | .down => .down | .up => .up) s.n)
    let mags := (s.nums.dft z).map s.nums.sqmag
    let silent := s.nums.isZero (s.nums.energy mags)
    exec (.demod ref src) s = .next { s with
      err := .none
      unit := { s.unit with
        rBin := if silent then 0xFFFFFFFF else BitVec.ofNat 32 (s.nums.argmax mags)
        rEnergy := if silent then s.nums.zero else s.nums.energy mags } }

/-- `INTERP` completes: `R_KA` from the three operand registers; no memory and no other register changes (rule R148). -/
def Obligations.InterpWritesTheSubBinCorrection : Prop :=
  ∀ s : State, Testing s →
    exec .interp s = .next { s with
      err := .none, unit := { s.unit with rKa := s.nums.interp3 s.unit.opYm1 s.unit.opY0 s.unit.opYp1 } }

/-- `CFOEST` completes: the peak of the doubled transform of the dechirped preamble, the estimate, the corrected preamble and
the correction vector, and nothing else (rules R156 to R161). In which order sums, products and quotients are rounded to the number
format, and that the argument of `cis` is the quotient with its sign changed last, is the model's choice (log 12). -/
def Obligations.CfoestWritesEstimateAndCorrections : Prop :=
  ∀ s : State, Testing s → Written s .pre (s.nused * s.n) → Written s .down s.n →
    let num := s.nums
    let m := s.nused * s.n
    let pre := fun (i : Nat) => (s.vec .pre m).getD i num.czero
    let down := fun (i : Nat) => (s.vec .down s.n).getD i num.czero
    let mags := (num.dft (((List.range m).map fun (i : Nat) => num.cmul (pre i) (down (i % s.n))) ++
      List.replicate m num.czero)).map num.sqmag
    let k0 := num.argmax mags
    let ym1 := mags.getD ((k0 + 2 * m - 1) % (2 * m)) num.zero
    let y0 := mags.getD k0 num.zero
    let yp1 := mags.getD ((k0 + 1) % (2 * m)) num.zero
    let ka := num.interp3 ym1 y0 yp1
    let lam := num.fold (num.div (num.add (num.ofFrac k0 1) ka) (num.ofFrac (2 * s.nused : Nat) 1))
    let ramp := fun (i : Nat) => num.cis (num.neg (num.div (num.mul lam (num.ofFrac i 1)) (num.ofFrac s.n 1)))
    ∃ t : State, exec .cfoest s = .next t ∧
      t = { s with
        err := .none, mems := t.mems, acq := { s.acq with lambdaCfo := lam }
        unit := { s.unit with rK0 := BitVec.ofNat 32 k0, opYm1 := ym1, opY0 := y0, opYp1 := yp1, rKa := ka } } ∧
      (∀ i : Nat, i < m → (t.mem .prec).elem i = some (num.cmul (pre i) (ramp i))) ∧
      (∀ i : Nat, i < s.n → (t.mem .corr).elem i = some (ramp i)) ∧
      ∀ (sp : Space) (off : Nat), ¬(sp = .prec ∧ off < 2 * m) → ¬(sp = .corr ∧ off < 2 * s.n) →
        t.load sp off = s.load sp off

/-- `CFOALT` completes: the phase difference of adjacent symbols at the strongest symbol's peak bin, in `R_ALT`, and that bin in
`R_K0`; nothing else changes (rules R162, R163). That the products are added one after another from symbol 0 on, starting from 0, is
the model's choice (log 2): rule R162 gives the sum no order. That minus an angle of 0 is `+0.0`, by rule R61, and not the stored
word with its sign flipped is the model's choice too (log 14). A block that uses no symbol (`NUSED = 0`) is no valid configuration
(rule R35). -/
def Obligations.CfoaltWritesThePhaseDifference : Prop :=
  ∀ s : State, Testing s → Written s .pre (s.nused * s.n) → Written s .down s.n → 0 < s.nused →
    let num := s.nums
    let pre := fun (i : Nat) => (s.vec .pre (s.nused * s.n)).getD i num.czero
    let down := fun (i : Nat) => (s.vec .down s.n).getD i num.czero
    let y := fun (i : Nat) => num.dft ((List.range s.n).map fun (j : Nat) => num.cmul (pre (i * s.n + j)) (down j))
    let p := fun (i : Nat) => num.argmax ((y i).map num.sqmag)
    let kc := p (num.argmax ((List.range s.nused).map fun (i : Nat) => num.sqmag ((y i).getD (p i) num.czero)))
    let acc := (List.range (s.nused - 1)).foldl (fun a (i : Nat) =>
      num.cadd a (num.cmul ((y i).getD kc num.czero) (num.conj ((y (i + 1)).getD kc num.czero)))) num.czero
    exec .cfoalt s = .next { s with
      err := .none
      unit := { s.unit with
        rK0 := BitVec.ofNat 32 kc
        rAlt := if num.isZero acc.1 && num.isZero acc.2 then num.zero else num.sub num.zero (num.argTurns acc) } }

/-- `STOEST` completes: the peak of the summed spectra of the corrected symbols, and the estimate; no memory and no other register
changes (rules R171, R172). That the sum of the peak index and the correction is rounded to the number format, then its half, then
the fold, is the model's choice (log 12). -/
def Obligations.StoestWritesTheTimingEstimate : Prop :=
  ∀ s : State, Testing s → Written s .prec (s.nused * s.n) → Written s .down s.n →
    let num := s.nums
    let prec := fun (i : Nat) => (s.vec .prec (s.nused * s.n)).getD i num.czero
    let down := fun (i : Nat) => (s.vec .down s.n).getD i num.czero
    let mags := fun (i : Nat) => (num.dft (((List.range s.n).map fun (j : Nat) =>
      num.cmul (prec (i * s.n + j)) (down j)) ++ List.replicate s.n num.czero)).map num.sqmag
    let sums := (List.range (2 * s.n)).map fun (k : Nat) =>
      (List.range s.nused).foldl (fun a (i : Nat) => num.add a ((mags i).getD k num.zero)) num.zero
    let k0 := num.argmax sums
    let ym1 := sums.getD ((k0 + 2 * s.n - 1) % (2 * s.n)) num.zero
    let y0 := sums.getD k0 num.zero
    let yp1 := sums.getD ((k0 + 1) % (2 * s.n)) num.zero
    let ka := num.interp3 ym1 y0 yp1
    exec .stoest s = .next { s with
      err := .none
      acq := { s.acq with lambdaSto := num.fold (num.div (num.add (num.ofFrac k0 1) ka) (num.ofFrac 2 1)) }
      unit := { s.unit with rK0 := BitVec.ofNat 32 k0, opYm1 := ym1, opY0 := y0, opYp1 := yp1, rKa := ka } }

/-- `FDLY` completes: only `DELAY_D` changes, to the rounded product of rule R181, at most `OS - 1` (rules R181, R182). That the
product is rounded to the number format before `round_haz` is the model's choice (log 12), and so is the free tap where the
product is no real number (log 4). -/
def Obligations.FdlyWritesTheDelayTap : Prop :=
  ∀ s : State, Testing s → ∃ d : Word, exec .fdly s = .next { s with err := .none, delayD := d } ∧
    ∀ r : Int, s.nums.roundHaz (s.nums.mul s.acq.lambdaSto (s.nums.ofFrac s.os 1)) = some r →
      d = intWord (if r < (s.os : Int) - 1 then r else s.os - 1)

/-- `DOWNS` completes: `SYM[i]` is `INBUF[OS - 1 + OS*i - DELAY_D]`, and nothing else changes (rules R183, R184). -/
def Obligations.DownsTakesOneSampleInEveryOs : Prop :=
  ∀ s : State, Testing s →
    let at_ := fun (i : Nat) => ((s.os : Int) - 1 + s.os * i - s.delayD.toInt)
    (∀ i : Nat, i < s.n → ((s.mem .inbuf).elem (at_ i)).isSome = true) →
    ∃ t : State, exec .downs s = .next t ∧ t = { s with mems := t.mems, err := .none } ∧
      (∀ i : Nat, i < s.n → (t.mem .sym).elem i = (s.mem .inbuf).elem (at_ i)) ∧ SameBut s t .sym 0 s.n

/-- A unit command that reads an element nothing has written stops with the model's fault (rule R45, log 6): `DEMOD` in each of its
forms, `CFOEST`, `CFOALT`, `STOEST` and `DOWNS`, for each operand memory. Which memory the fault names when two are unwritten is
the model's reading order (log 6). -/
def Obligations.UnwrittenOperandsFault : Prop :=
  ∀ s : State, Testing s →
    (∀ (ref : RefSel) (src : SrcSel),
      let r : Space := match ref with | .down => .down | .up => .up
      (¬Written s .sym s.n → exec (.demod ref src) s = .fault (.unwritten .sym)) ∧
      (Written s .sym s.n → src = .symCorr → ¬Written s .corr s.n →
        exec (.demod ref src) s = .fault (.unwritten .corr)) ∧
      (Written s .sym s.n → (src = .symCorr → Written s .corr s.n) → ¬Written s r s.n →
        exec (.demod ref src) s = .fault (.unwritten r))) ∧
    (¬Written s .pre (s.nused * s.n) →
      exec .cfoest s = .fault (.unwritten .pre) ∧ exec .cfoalt s = .fault (.unwritten .pre)) ∧
    (Written s .pre (s.nused * s.n) → ¬Written s .down s.n →
      exec .cfoest s = .fault (.unwritten .down) ∧ exec .cfoalt s = .fault (.unwritten .down)) ∧
    (¬Written s .prec (s.nused * s.n) → exec .stoest s = .fault (.unwritten .prec)) ∧
    (Written s .prec (s.nused * s.n) → ¬Written s .down s.n → exec .stoest s = .fault (.unwritten .down)) ∧
    ((∃ i : Nat, i < s.n ∧ (s.mem .inbuf).elem ((s.os : Int) - 1 + s.os * i - s.delayD.toInt) = none) →
      exec .downs s = .fault (.unwritten .inbuf))

/-- `FSMSTEP` and `WORK` stop with the model's fault when what they run reads an element nothing has written (rules R45, R191 to
R200, R224, log 6): the symbol, the correction vector and the reference of the position, the estimators on the first step in
`SYNC`, and for `WORK` the downsampler and the step. -/
def Obligations.StepsOnUnwrittenOperandsFault : Prop :=
  (∀ s : State, Testing s →
    (s.acq.state = .detect →
      (¬Written s .sym s.n → exec .fsmstep s = .fault (.unwritten .sym)) ∧
      (Written s .sym s.n → ¬Written s .down s.n → exec .fsmstep s = .fault (.unwritten .down))) ∧
    (s.acq.state = .sync → s.acq.estDone = false → ∀ f : Fault, exec .cfoest s = .fault f → exec .fsmstep s = .fault f) ∧
    (s.acq.state = .sync → s.acq.estDone = true →
      (s.acq.syncPos = .netId1 ∨ s.acq.syncPos = .netId2 ∨ s.acq.syncPos = .downchirp2) →
      let r : Space := if s.acq.syncPos = .downchirp2 then .up else .down
      (¬Written s .sym s.n → exec .fsmstep s = .fault (.unwritten .sym)) ∧
      (Written s .sym s.n → ¬Written s .corr s.n → exec .fsmstep s = .fault (.unwritten .corr)) ∧
      (Written s .sym s.n → Written s .corr s.n → ¬Written s r s.n → exec .fsmstep s = .fault (.unwritten r))) ∧
    (s.acq.state = .fracCfoCorrec → s.acq.symCnt.toNat < s.acq.symbNumb.toNat →
      (¬Written s .sym s.n → exec .fsmstep s = .fault (.unwritten .sym)) ∧
      (Written s .sym s.n → ¬Written s .corr s.n → exec .fsmstep s = .fault (.unwritten .corr)))) ∧
  ∀ s a b : State, s.started = true →
    exec .drain { s with test := true } = .next a →
    s.os * (s.n + 2) ≤ a.mail.inAvail.toNat →
    ¬(a.acq.state = .fracCfoCorrec ∧ a.acq.symCnt.toNat < a.acq.symbNumb.toNat ∧ a.mail.outCap.toNat < s.n) →
    exec .fdly a = .next b →
      (∀ f : Fault, exec .downs b = .fault f → exec .work s = .fault f) ∧
      ∀ (c : State) (f : Fault), exec .downs b = .next c → exec .fsmstep c = .fault f → exec .work s = .fault f

/-- The delay tap of a fractional offset lies in `-floor(OS/2) .. min(ceil(OS/2), OS-1)` (rules R22, R181), whatever the
implementation's numerics; fractional is in `(-1/2, 1/2]`. For a `LAMBDA_STO` that is no real number, of which rule R181 says nothing,
the same bounds are the model's choice (log 4); that the product is rounded to the number format is log 12, and that plain
multiplication is that of binary32 in every instance log 3. -/
def Obligations.DelayTapStaysInItsRange : Prop :=
  ∀ (s : State) (t : State), Testing s → 1 ≤ s.os → s.os ≤ 16 → fractionalWord s.acq.lambdaSto →
    exec .fdly s = .next t →
      -((s.os / 2 : Nat) : Int) ≤ t.delayD.toInt ∧ t.delayD.toInt ≤ (((s.os + 1) / 2 : Nat) : Int) ∧
      t.delayD.toInt ≤ (s.os : Int) - 1

/-- Running `GEN` twice is the same as once (rules R123, R124), and so is running `CFOEST` twice (rule R164). -/
def Obligations.GenAndCfoestAreIdempotent : Prop :=
  ∀ s t : State, Testing s →
    (exec .gen s = .next t → exec .gen t = .next t) ∧ (exec .cfoest s = .next t → exec .cfoest t = .next t)

/-! ### The state machine -/

/-- A step in `DETECT` completes: preamble tracking, and the transition to `SYNC` when the count is reached (rules R191 to
R193, R205). -/
def Obligations.DetectStepTracksThePreamble : Prop :=
  ∀ s : State, Testing s → s.acq.state = .detect → Written s .sym s.n → Written s .down s.n →
    let be := s.nums.demod (s.vec .sym s.n) (s.vec .down s.n)
    let matched := be.1 ≠ none ∧ s.acq.binPrev ≠ 0xFFFFFFFF ∧ (((be.1.getD 0 : Nat) : Int) - s.acq.binPrev.toInt).natAbs ≤ 1
    let slot := if matched then s.acq.matchCnt.toNat else 0
    let sum := if matched then s.acq.kHat + BitVec.ofNat 32 (be.1.getD 0) else BitVec.ofNat 32 (be.1.getD 0)
    let cnt : Word := if matched then s.acq.matchCnt + 1 else 1
    let mean : Nat := (2 * sum.toNat + (s.nup - 1)) / (2 * (s.nup - 1))
    let done := cnt.toNat + 1 = s.nup
    let used := intWord (s.os * (if done then (s.n : Int) - mean else s.n))
    let bin : Word := match be.1 with
      | none => 0xFFFFFFFF
      | some b => BitVec.ofNat 32 b
    ∃ t : State, exec .fsmstep s = .next t ∧
      t = { s with
        err := .none, mems := t.mems
        acq := if done then
            { s.acq with kHat := intWord mean, matchCnt := cnt, binPrev := bin, state := .sync, syncPos := .netId1
                         estDone := false }
          else { s.acq with kHat := sum, matchCnt := cnt, binPrev := bin }
        unit := { s.unit with rBin := bin, rEnergy := be.2 }
        report := { s.report with consumed := used, produced := 0, tagValid := false }
        count := { s.count with inCount := s.count.inCount + used.setWidth 64 } } ∧
      Holds t .pre (slot * s.n) (s.vec .sym s.n) ∧ SameBut s t .pre (slot * s.n) s.n

/-- The first step in `SYNC` runs `CFOEST`, then `STOEST`, sets `EST_DONE`, and goes on as any later step does (rules R194,
R205). -/
def Obligations.FirstSyncStepRunsTheEstimators : Prop :=
  ∀ s a b : State, Testing s → s.acq.state = .sync → s.acq.estDone = false →
    exec .cfoest s = .next a → exec .stoest a = .next b →
    exec .fsmstep s = exec .fsmstep { b with acq := { b.acq with estDone := true } }

/-- A step at `NET_ID1` completes: the ignore set first, then the failure, then the acceptance; nothing else changes (rules R194,
R195, R205). -/
def Obligations.NetId1StepIgnoresFailsOrAdvances : Prop :=
  ∀ s : State, Testing s → s.acq.state = .sync → s.acq.syncPos = .netId1 → s.acq.estDone = true →
    Written s .sym s.n → Written s .corr s.n → Written s .down s.n →
    let be := s.nums.demod s.corrected (s.vec .down s.n)
    let used := intWord (s.os * s.n)
    let r : State := { s with
      err := .none, unit := { s.unit with rBin := binWord be.1, rEnergy := be.2 }
      report := { s.report with consumed := used, produced := 0, tagValid := false }
      count := { s.count with inCount := s.count.inCount + used.setWidth 64 } }
    (∀ b : Nat, be.1 = some b → b = 0 ∨ b = 1 ∨ b + 1 = s.n → exec .fsmstep s = .next r) ∧
    (∀ b : Nat, be.1 = some b → ¬(b = 0 ∨ b = 1 ∨ b + 1 = s.n) → ((b : Int) - s.cfg.netId1).natAbs ≤ 1 →
      exec .fsmstep s = .next { r with
        acq := { s.acq with netIdOff := intWord ((b : Int) - s.cfg.netId1), syncPos := .netId2 } }) ∧
    (∀ b : Nat, be.1 = some b → ¬(b = 0 ∨ b = 1 ∨ b + 1 = s.n) → 1 < ((b : Int) - s.cfg.netId1).natAbs →
      exec .fsmstep s = .next (r.resync .netId1)) ∧
    (be.1 = none → exec .fsmstep s = .next (r.resync .netId1))

/-- A step at `NET_ID2` completes: the failure, or the acceptance with the deviation of identifier 1 absorbed when it repeats
(rules R194, R196, R205). -/
def Obligations.NetId2StepFailsOrCompensates : Prop :=
  ∀ s : State, Testing s → s.acq.state = .sync → s.acq.syncPos = .netId2 → s.acq.estDone = true →
    Written s .sym s.n → Written s .corr s.n → Written s .down s.n →
    let be := s.nums.demod s.corrected (s.vec .down s.n)
    let off := s.acq.netIdOff.toInt
    let r := fun (used : Word) => ({ s with
      err := .none, unit := { s.unit with rBin := binWord be.1, rEnergy := be.2 }
      report := { s.report with consumed := used, produced := 0, tagValid := false }
      count := { s.count with inCount := s.count.inCount + used.setWidth 64 } } : State)
    (∀ b : Nat, be.1 = some b → ((b : Int) - s.cfg.netId2).natAbs ≤ 1 →
      exec .fsmstep s = .next { r (intWord (s.os *
          (if off ≠ 0 ∧ (b : Int) - s.cfg.netId2 = off then (s.n : Int) - off else s.n))) with
        acq := { s.acq with syncPos := .downchirp1 } }) ∧
    (∀ b : Nat, be.1 = some b → 1 < ((b : Int) - s.cfg.netId2).natAbs →
      exec .fsmstep s = .next ((r (intWord (s.os * s.n))).resync .netId2)) ∧
    (be.1 = none → exec .fsmstep s = .next ((r (intWord (s.os * s.n))).resync .netId2))

/-- A step at `DOWNCHIRP1` completes and only advances; a step at `DOWNCHIRP2` completes with the corrected symbol decoded against
the up-chirp and the result stored, -1 when there is none (rules R194, R197, R198, R205). That the step at `DOWNCHIRP1`
completes whether or not `SYM` and `CORR` are written is the model's choice (log 9): the product `Z` of rule R194, which rule R197
does not examine, is not formed there. -/
def Obligations.DownchirpStepsAdvanceAndStoreTheResult : Prop :=
  ∀ s : State, Testing s → s.acq.state = .sync → s.acq.estDone = true →
    let used := intWord (s.os * s.n)
    let report : Report := { s.report with consumed := used, produced := 0, tagValid := false }
    let count : Counters := { s.count with inCount := s.count.inCount + used.setWidth 64 }
    (s.acq.syncPos = .downchirp1 →
      exec .fsmstep s = .next { s with
        err := .none, report := report, count := count, acq := { s.acq with syncPos := .downchirp2 } }) ∧
    (s.acq.syncPos = .downchirp2 → Written s .sym s.n → Written s .corr s.n → Written s .up s.n →
      let be := s.nums.demod s.corrected (s.vec .up s.n)
      let bin : Word := match be.1 with
        | none => 0xFFFFFFFF
        | some b => BitVec.ofNat 32 b
      exec .fsmstep s = .next { s with
        err := .none, report := report, count := count
        acq := { s.acq with downVal := bin, syncPos := .quarterDown }
        unit := { s.unit with rBin := bin, rEnergy := be.2 } })

/-- A step at `QUARTER_DOWN` completes: without a down-chirp result it resynchronises; with one it derives the integer offset,
emits the tag at the present output position, consumes a quarter symbol and the offset, and enters the frame (rules R194, R199).
The chirp pair is generated again; that this changes nothing after `START` is the statement `ReferenceChirpsAreConstant`. That
the step completes whether or not `SYM` and `CORR` are written is the model's choice (log 9): the product `Z` of rule R194, which
rule R199 does not examine, is not formed here. -/
def Obligations.QuarterDownStepEntersTheFrame : Prop :=
  ∀ s : State, Testing s → s.acq.state = .sync → s.acq.syncPos = .quarterDown → s.acq.estDone = true →
    let used := fun (c : Int) => intWord (s.os * c)
    let r := fun (u : Word) => ({ s with
      err := .none
      report := { s.report with consumed := u, produced := 0, tagValid := false }
      count := { s.count with inCount := s.count.inCount + u.setWidth 64 } } : State)
    (s.acq.downVal = 0xFFFFFFFF → exec .fsmstep s = .next ((r (used s.n)).resync .noDown)) ∧
    (s.acq.downVal ≠ 0xFFFFFFFF →
      let v := s.acq.downVal.toInt
      let c : Int := if 2 * v < s.n then v / 2 else (v - s.n) / 2
      ∃ t : State, exec .fsmstep s = .next t ∧
        t = { r (used ((s.n / 4 : Nat) + c)) with
          mems := t.mems
          acq := { s.acq with
            cfoInt := intWord c, state := .fracCfoCorrec, symCnt := 0, symbNumb := s.cfg.hdrSyms.setWidth 32 }
          report := { consumed := used ((s.n / 4 : Nat) + c), produced := 0, tagValid := true
                      tagOffset := s.count.outCount, tagCfoint := intWord c } } ∧
        Holds t .up 0 (s.nums.gen s.cfg.sf.toNat 1).1 ∧ Holds t .down 0 (s.nums.gen s.cfg.sf.toNat 1).2 ∧
        ∀ (sp : Space) (off : Nat), ¬((sp = .up ∨ sp = .down) ∧ off < 2 * s.n) → t.load sp off = s.load sp off)

/-- A step in a frame completes. With symbols outstanding the corrected symbol goes to `OUTBUF` and `N` samples are produced (rule
R200); without, it consumes nothing and resynchronises (rule R201). -/
def Obligations.FrameStepsEmitThenEnd : Prop :=
  ∀ s : State, Testing s → s.acq.state = .fracCfoCorrec →
    (s.acq.symCnt.toNat < s.acq.symbNumb.toNat → Written s .sym s.n → Written s .corr s.n →
      let used := intWord (s.os * s.n)
      ∃ t : State, exec .fsmstep s = .next t ∧
        t = { s with
          err := .none, mems := t.mems, acq := { s.acq with symCnt := s.acq.symCnt + 1 }
          report := { s.report with consumed := used, produced := BitVec.ofNat 32 s.n, tagValid := false }
          count := { s.count with
            inCount := s.count.inCount + used.setWidth 64
            outCount := s.count.outCount + (BitVec.ofNat 32 s.n).setWidth 64 } } ∧
        Holds t .outbuf 0 s.corrected ∧ SameBut s t .outbuf 0 s.n) ∧
    (s.acq.symbNumb.toNat ≤ s.acq.symCnt.toNat →
      exec .fsmstep s = .next (State.resync { s with
        err := .none, report := { s.report with consumed := 0, produced := 0, tagValid := false } } .frameDone))

/-- `RESYNC` (rule R250): what it writes, and that nothing else changes. -/
def Obligations.ResynchronisationResetsTheAcquisition : Prop :=
  ∀ (s : State) (c : Cause),
    let t := s.resync c
    t = { s with
      mems := t.mems
      acq := {
        state := .detect, syncPos := .netId1, estDone := false, kHat := 0, lambdaCfo := 0, lambdaSto := 0, cfoInt := 0
        binPrev := 0xFFFFFFFF, matchCnt := 0, netIdOff := 0, downVal := 0xFFFFFFFF, symCnt := 0
        symbNumb := s.cfg.hdrSyms.setWidth 32 }
      resyncCause := c
      count := { s.count with resyncCount := s.count.resyncCount + 1 } } ∧
    AllEqual t .corr s.n s.nums.cone ∧ SameBut s t .corr 0 s.n

/-- Every change of (`STATE`, `SYNC_POS`) by a step of the state machine is a row of the table of rule R203, with its condition,
its cause and its consumed count; the drain's row is the last one; `WORK` takes the drain's row and then, when it makes progress, one
row of the step; and no other command but `START` and `RESET` moves the sequencer. -/
def Obligations.SequencerMovesByTheTransitionTable : Prop :=
  (∀ s t : State, Testing s → exec .fsmstep s = .next t → Transition s t) ∧
  (∀ s t : State, Testing s → exec .drain s = .next t → DrainTransition s t) ∧
  (∀ s t : State, s.started = true → exec .work s = .next t →
    ∃ a : State, exec .drain { s with test := true } = .next a ∧ DrainTransition s a ∧
      ((MovedTo a t a.acq.state a.acq.syncPos ∧ reports t 0 0 ∧
          (a.mail.inAvail.toNat < s.os * (s.n + 2) ∨
            (a.acq.state = .fracCfoCorrec ∧ a.acq.symCnt.toNat < a.acq.symbNumb.toNat ∧ a.mail.outCap.toNat < s.n))) ∨
        ∃ b c : State, exec .fdly a = .next b ∧ exec .downs b = .next c ∧ c.acq = a.acq ∧ c.cfg = a.cfg ∧
          c.resyncCause = a.resyncCause ∧ c.count = a.count ∧ Transition c t)) ∧
  (∀ (i : Instr) (s t : State), i ≠ .fsmstep → i ≠ .drain → i ≠ .work → i ≠ .reset → (∀ m : Mode, i ≠ .start m) →
    exec i s = .next t → t.acq.state = s.acq.state ∧ t.acq.syncPos = s.acq.syncPos)

/-- A known integer offset comes back: for `-N/4 <= c < N/4` the down-chirp result is `2c mod N`, and the integer offset derived
from it is `c` (rule R199). -/
def Obligations.IntegerOffsetRoundTrips : Prop :=
  ∀ (sf : Nat) (c : Int), 2 ≤ sf → -(2 ^ sf / 4 : Int) ≤ c → c < 2 ^ sf / 4 → integerCfo (2 * c % 2 ^ sf) (2 ^ sf) = c

/-- The mean of the matched bins is rounded to the nearest integer, ties upward, and lies among the bins it is the mean of (rules
R12, R193). -/
def Obligations.MeanBinIsTheNearestInteger : Prop :=
  ∀ (bins : List Nat) (lo hi : Nat), bins ≠ [] → (∀ b ∈ bins, lo ≤ b ∧ b ≤ hi) →
    let k := roundHazFrac (bins.sum : Nat) bins.length
    (lo : Int) ≤ k ∧ k ≤ hi ∧ 2 * (bins.sum : Int) - bins.length < 2 * k * bins.length ∧
      2 * k * bins.length ≤ 2 * (bins.sum : Int) + bins.length

/-! ### The machine as a whole -/

/-- Every step keeps every sample memory in canonical form: equal memories are equal data. The form is the model's own (log
5). -/
def Obligations.StepsKeepMemoriesCanonical : Prop :=
  ∀ s t : State, CanonicalMemories s → step s = .next t → CanonicalMemories t

/-- Every step keeps the protocol invariant of rule R202 (a), (c) to (f), with the register ranges of rule R22 and the
consistency of rules R25, R26, R35, R42, R43 and R75, in either mode. -/
def Obligations.StepsKeepTheProtocol : Prop :=
  ∀ s t : State, Protocol s → step s = .next t → Protocol t

/-- In `RUN` mode every step keeps what rule R202 (a), (b) says of `DETECT`: the fractional offsets 0, `CORR` all ones, and
`K_HAT` the sum of the bins of the run in `PRE`. -/
def Obligations.StepsKeepTheRunModeInvariant : Prop :=
  ∀ s t : State, Protocol s → RunMode s → step s = .next t → RunMode t

/-- Every step keeps both fractional offsets in `(-1/2, 1/2]` (rules R22, R24, R147), whatever the implementation's numerics. Words
that stand for no real number are exempt (log 4); plain addition and subtraction are those of binary32 in every instance (log
3). -/
def Obligations.StepsKeepTheOffsetsFractional : Prop :=
  ∀ s t : State, OffsetsFractional s → step s = .next t → OffsetsFractional t

/-- The state after reset meets every invariant. -/
def Obligations.ResetMeetsTheInvariants : Prop :=
  CanonicalMemories State.reset ∧ Protocol State.reset ∧ RunMode State.reset ∧ OffsetsFractional State.reset

/-- The reference chirps are constant from `START` to `RESET` (rule R75). -/
def Obligations.ReferenceChirpsAreConstant : Prop :=
  ∀ s t : State, Protocol s → s.started = true → step s = .next t → t.started = true →
    ∀ off : Nat, t.load .up off = s.load .up off ∧ t.load .down off = s.load .down off

/-- A tag appears only on the invocation that enters the frame, which produces nothing, and it stands at the position the next
produced block will take (rules R98, R229). -/
def Obligations.TagsAppearOnlyAtFrameEntry : Prop :=
  ∀ s t : State, s.started = true → exec .work s = .next t → t.report.tagValid = true →
    s.acq.state = .sync ∧ s.acq.syncPos = .quarterDown ∧ s.acq.downVal ≠ 0xFFFFFFFF ∧ t.acq.state = .fracCfoCorrec ∧
    t.report.produced = 0 ∧ t.report.tagOffset = t.count.outCount ∧ t.report.tagCfoint = t.acq.cfoInt

/-- `IN_COUNT` and `OUT_COUNT` grow by what an invocation reports, modulo `2^64` (rules R38, R191, R224 (e)). -/
def Obligations.CountersGrowByWhatIsReported : Prop :=
  ∀ s t : State, s.started = true → exec .work s = .next t →
    t.count.inCount.toNat = (s.count.inCount.toNat + t.report.consumed.toNat) % 2 ^ 64 ∧
    t.count.outCount.toNat = (s.count.outCount.toNat + t.report.produced.toNat) % 2 ^ 64

/-! ### Numerics -/

/-- The peak pick (rule R132), in every instance of the numerics: the least index whose value is `>=` every value. -/
def Obligations.PeakIsTheLeastIndexOfTheMaximum : Prop :=
  ∀ (R : Type) (num : Num R) (mags : List R) (k : Nat) (y : R), mags[k]? = some y →
    (∀ x ∈ mags, num.ge y x = true) →
    (∀ (j : Nat) (z : R), j < k → mags[j]? = some z → ∃ x ∈ mags, num.ge z x = false) →
    num.argmax mags = k

/-- `fold` over the exact real numbers (rule R147). -/
def Obligations.FoldReducesIntoTheHalfOpenInterval : Prop :=
  ∀ x : ℝ, -(1 / 2) < realArith.fold x ∧ realArith.fold x ≤ 1 / 2 ∧ ∃ m : ℤ, realArith.fold x - x = m

/-- The chirp pair over the exact complex numbers (rule R126): lengths, conjugation, first sample, periodicity of the formula and
its value in the middle. -/
def Obligations.ChirpPairHasTheStatedProperties : Prop :=
  ∀ sf os : ℕ, 7 ≤ sf → sf ≤ 12 → 1 ≤ os →
    let ud := Num.exact.gen sf os
    ud.1.length = 2 ^ sf * os ∧ ud.2.length = 2 ^ sf * os ∧
    (∀ (n : ℕ) (z : Cx ℝ), ud.1[n]? = some z →
      z = exactCis (exactTheta sf os n) ∧ ud.2[n]? = some (z.1, -z.2)) ∧
    ud.1[0]? = some (1, 0) ∧
    (os = 1 → (∀ n : ℕ, exactCis (exactTheta sf 1 (n + 2 ^ sf)) = exactCis (exactTheta sf 1 n)) ∧
      ud.1[2 ^ sf / 2]? = some (1, 0))

/-- Demodulating a noiseless chirp that carries `v` gives exactly `v`, with energy `N`, over the exact complex numbers (rule R137
(a)). -/
def Obligations.NoiselessSymbolDecodesToItsValue : Prop :=
  ∀ (sf v : ℕ) (q : ℝ), 7 ≤ sf → sf ≤ 12 → v < 2 ^ sf →
    Num.exact.demod (exactSymbol sf v q) (Num.exact.gen sf 1).2 = (some v, (2 ^ sf : ℝ))

/-- Parseval's identity for the energy (rule R133) and the zero test (rule R135), over the exact complex numbers. -/
def Obligations.EnergyIsTheSumOfSquaredMagnitudes : Prop :=
  ∀ x : List (Cx ℝ), x ≠ [] →
    Num.exact.energy (Num.exact.spectrum x) = (x.map fun z => z.1 * z.1 + z.2 * z.2).sum ∧
    (Num.exact.energy (Num.exact.spectrum x) = 0 ↔ ∀ z ∈ x, z = (0, 0))

/-- The sub-bin correction over the exact real numbers (rule R146): 0 when the denominator is 0, antisymmetric in the outer
values, and below 0.584 when the middle value is the greatest of three that are not negative. -/
def Obligations.SubBinCorrectionIsBounded : Prop :=
  ∀ a b c : ℝ,
    Num.exact.interp3 c b a = -Num.exact.interp3 a b c ∧
    (c + a + 2.4674 * b = 0 → Num.exact.interp3 a b c = 0) ∧
    (0 ≤ a → 0 ≤ c → a ≤ b → c ≤ b → |Num.exact.interp3 a b c| < 0.584)
end

