-- ==== Sys2Proof/Laws/State.lean ====
section
/-! SUPPORT. One lemma per field per update of the state, true by `rfl`: no later proof unfolds a record update. -/

namespace Sys2Proof.Machine

variable (s : State)

/-! ### `setErr` -/

@[simp] theorem State.setErr_started (c : ErrCode) : (s.setErr c).started = s.started := rfl
@[simp] theorem State.setErr_test (c : ErrCode) : (s.setErr c).test = s.test := rfl
@[simp] theorem State.setErr_err (c : ErrCode) : (s.setErr c).err = c := rfl
@[simp] theorem State.setErr_resyncCause (c : ErrCode) : (s.setErr c).resyncCause = s.resyncCause := rfl
@[simp] theorem State.setErr_cfg (c : ErrCode) : (s.setErr c).cfg = s.cfg := rfl
@[simp] theorem State.setErr_acq (c : ErrCode) : (s.setErr c).acq = s.acq := rfl
@[simp] theorem State.setErr_mail (c : ErrCode) : (s.setErr c).mail = s.mail := rfl
@[simp] theorem State.setErr_report (c : ErrCode) : (s.setErr c).report = s.report := rfl
@[simp] theorem State.setErr_count (c : ErrCode) : (s.setErr c).count = s.count := rfl
@[simp] theorem State.setErr_unit (c : ErrCode) : (s.setErr c).unit = s.unit := rfl
@[simp] theorem State.setErr_mems (c : ErrCode) : (s.setErr c).mems = s.mems := rfl
@[simp] theorem State.setErr_evq (c : ErrCode) : (s.setErr c).evq = s.evq := rfl
@[simp] theorem State.setErr_fmPaylen (c : ErrCode) : (s.setErr c).fmPaylen = s.fmPaylen := rfl
@[simp] theorem State.setErr_fmHascrc (c : ErrCode) : (s.setErr c).fmHascrc = s.fmHascrc := rfl
@[simp] theorem State.setErr_delayD (c : ErrCode) : (s.setErr c).delayD = s.delayD := rfl
@[simp] theorem State.setErr_bus (c : ErrCode) : (s.setErr c).bus = s.bus := rfl
@[simp] theorem State.setErr_busData (c : ErrCode) : (s.setErr c).busData = s.busData := rfl
@[simp] theorem State.setErr_num (c : ErrCode) : (s.setErr c).num = s.num := rfl

/-! ### `setBus` -/

@[simp] theorem State.setBus_started (ops : List BusOp) : (s.setBus ops).started = s.started := rfl
@[simp] theorem State.setBus_test (ops : List BusOp) : (s.setBus ops).test = s.test := rfl
@[simp] theorem State.setBus_err (ops : List BusOp) : (s.setBus ops).err = s.err := rfl
@[simp] theorem State.setBus_resyncCause (ops : List BusOp) : (s.setBus ops).resyncCause = s.resyncCause := rfl
@[simp] theorem State.setBus_cfg (ops : List BusOp) : (s.setBus ops).cfg = s.cfg := rfl
@[simp] theorem State.setBus_acq (ops : List BusOp) : (s.setBus ops).acq = s.acq := rfl
@[simp] theorem State.setBus_mail (ops : List BusOp) : (s.setBus ops).mail = s.mail := rfl
@[simp] theorem State.setBus_report (ops : List BusOp) : (s.setBus ops).report = s.report := rfl
@[simp] theorem State.setBus_count (ops : List BusOp) : (s.setBus ops).count = s.count := rfl
@[simp] theorem State.setBus_unit (ops : List BusOp) : (s.setBus ops).unit = s.unit := rfl
@[simp] theorem State.setBus_mems (ops : List BusOp) : (s.setBus ops).mems = s.mems := rfl
@[simp] theorem State.setBus_evq (ops : List BusOp) : (s.setBus ops).evq = s.evq := rfl
@[simp] theorem State.setBus_fmPaylen (ops : List BusOp) : (s.setBus ops).fmPaylen = s.fmPaylen := rfl
@[simp] theorem State.setBus_fmHascrc (ops : List BusOp) : (s.setBus ops).fmHascrc = s.fmHascrc := rfl
@[simp] theorem State.setBus_delayD (ops : List BusOp) : (s.setBus ops).delayD = s.delayD := rfl
@[simp] theorem State.setBus_bus (ops : List BusOp) : (s.setBus ops).bus = ops := rfl
@[simp] theorem State.setBus_busData (ops : List BusOp) : (s.setBus ops).busData = s.busData := rfl
@[simp] theorem State.setBus_num (ops : List BusOp) : (s.setBus ops).num = s.num := rfl

/-! ### `setBusData` -/

@[simp] theorem State.setBusData_started (w : Word) : (s.setBusData w).started = s.started := rfl
@[simp] theorem State.setBusData_test (w : Word) : (s.setBusData w).test = s.test := rfl
@[simp] theorem State.setBusData_err (w : Word) : (s.setBusData w).err = s.err := rfl
@[simp] theorem State.setBusData_resyncCause (w : Word) : (s.setBusData w).resyncCause = s.resyncCause := rfl
@[simp] theorem State.setBusData_cfg (w : Word) : (s.setBusData w).cfg = s.cfg := rfl
@[simp] theorem State.setBusData_acq (w : Word) : (s.setBusData w).acq = s.acq := rfl
@[simp] theorem State.setBusData_mail (w : Word) : (s.setBusData w).mail = s.mail := rfl
@[simp] theorem State.setBusData_report (w : Word) : (s.setBusData w).report = s.report := rfl
@[simp] theorem State.setBusData_count (w : Word) : (s.setBusData w).count = s.count := rfl
@[simp] theorem State.setBusData_unit (w : Word) : (s.setBusData w).unit = s.unit := rfl
@[simp] theorem State.setBusData_mems (w : Word) : (s.setBusData w).mems = s.mems := rfl
@[simp] theorem State.setBusData_evq (w : Word) : (s.setBusData w).evq = s.evq := rfl
@[simp] theorem State.setBusData_fmPaylen (w : Word) : (s.setBusData w).fmPaylen = s.fmPaylen := rfl
@[simp] theorem State.setBusData_fmHascrc (w : Word) : (s.setBusData w).fmHascrc = s.fmHascrc := rfl
@[simp] theorem State.setBusData_delayD (w : Word) : (s.setBusData w).delayD = s.delayD := rfl
@[simp] theorem State.setBusData_bus (w : Word) : (s.setBusData w).bus = s.bus := rfl
@[simp] theorem State.setBusData_busData (w : Word) : (s.setBusData w).busData = w := rfl
@[simp] theorem State.setBusData_num (w : Word) : (s.setBusData w).num = s.num := rfl

/-! ### `setMem` -/

@[simp] theorem State.setMem_started (sp : Space) (m : Mem) : (s.setMem sp m).started = s.started := rfl
@[simp] theorem State.setMem_test (sp : Space) (m : Mem) : (s.setMem sp m).test = s.test := rfl
@[simp] theorem State.setMem_err (sp : Space) (m : Mem) : (s.setMem sp m).err = s.err := rfl
@[simp] theorem State.setMem_resyncCause (sp : Space) (m : Mem) : (s.setMem sp m).resyncCause = s.resyncCause := rfl
@[simp] theorem State.setMem_cfg (sp : Space) (m : Mem) : (s.setMem sp m).cfg = s.cfg := rfl
@[simp] theorem State.setMem_acq (sp : Space) (m : Mem) : (s.setMem sp m).acq = s.acq := rfl
@[simp] theorem State.setMem_mail (sp : Space) (m : Mem) : (s.setMem sp m).mail = s.mail := rfl
@[simp] theorem State.setMem_report (sp : Space) (m : Mem) : (s.setMem sp m).report = s.report := rfl
@[simp] theorem State.setMem_count (sp : Space) (m : Mem) : (s.setMem sp m).count = s.count := rfl
@[simp] theorem State.setMem_unit (sp : Space) (m : Mem) : (s.setMem sp m).unit = s.unit := rfl
@[simp] theorem State.setMem_evq (sp : Space) (m : Mem) : (s.setMem sp m).evq = s.evq := rfl
@[simp] theorem State.setMem_fmPaylen (sp : Space) (m : Mem) : (s.setMem sp m).fmPaylen = s.fmPaylen := rfl
@[simp] theorem State.setMem_fmHascrc (sp : Space) (m : Mem) : (s.setMem sp m).fmHascrc = s.fmHascrc := rfl
@[simp] theorem State.setMem_delayD (sp : Space) (m : Mem) : (s.setMem sp m).delayD = s.delayD := rfl
@[simp] theorem State.setMem_bus (sp : Space) (m : Mem) : (s.setMem sp m).bus = s.bus := rfl
@[simp] theorem State.setMem_busData (sp : Space) (m : Mem) : (s.setMem sp m).busData = s.busData := rfl
@[simp] theorem State.setMem_num (sp : Space) (m : Mem) : (s.setMem sp m).num = s.num := rfl

/-! ### `storeElems` -/

@[simp] theorem State.storeElems_started (sp : Space) (i : Nat) (xs : List Sample) : (s.storeElems sp i xs).started = s.started := rfl
@[simp] theorem State.storeElems_test (sp : Space) (i : Nat) (xs : List Sample) : (s.storeElems sp i xs).test = s.test := rfl
@[simp] theorem State.storeElems_err (sp : Space) (i : Nat) (xs : List Sample) : (s.storeElems sp i xs).err = s.err := rfl
@[simp] theorem State.storeElems_resyncCause (sp : Space) (i : Nat) (xs : List Sample) : (s.storeElems sp i xs).resyncCause = s.resyncCause := rfl
@[simp] theorem State.storeElems_cfg (sp : Space) (i : Nat) (xs : List Sample) : (s.storeElems sp i xs).cfg = s.cfg := rfl
@[simp] theorem State.storeElems_acq (sp : Space) (i : Nat) (xs : List Sample) : (s.storeElems sp i xs).acq = s.acq := rfl
@[simp] theorem State.storeElems_mail (sp : Space) (i : Nat) (xs : List Sample) : (s.storeElems sp i xs).mail = s.mail := rfl
@[simp] theorem State.storeElems_report (sp : Space) (i : Nat) (xs : List Sample) : (s.storeElems sp i xs).report = s.report := rfl
@[simp] theorem State.storeElems_count (sp : Space) (i : Nat) (xs : List Sample) : (s.storeElems sp i xs).count = s.count := rfl
@[simp] theorem State.storeElems_unit (sp : Space) (i : Nat) (xs : List Sample) : (s.storeElems sp i xs).unit = s.unit := rfl
@[simp] theorem State.storeElems_evq (sp : Space) (i : Nat) (xs : List Sample) : (s.storeElems sp i xs).evq = s.evq := rfl
@[simp] theorem State.storeElems_fmPaylen (sp : Space) (i : Nat) (xs : List Sample) : (s.storeElems sp i xs).fmPaylen = s.fmPaylen := rfl
@[simp] theorem State.storeElems_fmHascrc (sp : Space) (i : Nat) (xs : List Sample) : (s.storeElems sp i xs).fmHascrc = s.fmHascrc := rfl
@[simp] theorem State.storeElems_delayD (sp : Space) (i : Nat) (xs : List Sample) : (s.storeElems sp i xs).delayD = s.delayD := rfl
@[simp] theorem State.storeElems_bus (sp : Space) (i : Nat) (xs : List Sample) : (s.storeElems sp i xs).bus = s.bus := rfl
@[simp] theorem State.storeElems_busData (sp : Space) (i : Nat) (xs : List Sample) : (s.storeElems sp i xs).busData = s.busData := rfl
@[simp] theorem State.storeElems_num (sp : Space) (i : Nat) (xs : List Sample) : (s.storeElems sp i xs).num = s.num := rfl

/-! ### `generate` -/

@[simp] theorem State.generate_started : s.generate.started = s.started := rfl
@[simp] theorem State.generate_test : s.generate.test = s.test := rfl
@[simp] theorem State.generate_err : s.generate.err = s.err := rfl
@[simp] theorem State.generate_resyncCause : s.generate.resyncCause = s.resyncCause := rfl
@[simp] theorem State.generate_cfg : s.generate.cfg = s.cfg := rfl
@[simp] theorem State.generate_acq : s.generate.acq = s.acq := rfl
@[simp] theorem State.generate_mail : s.generate.mail = s.mail := rfl
@[simp] theorem State.generate_report : s.generate.report = s.report := rfl
@[simp] theorem State.generate_count : s.generate.count = s.count := rfl
@[simp] theorem State.generate_unit : s.generate.unit = s.unit := rfl
@[simp] theorem State.generate_evq : s.generate.evq = s.evq := rfl
@[simp] theorem State.generate_fmPaylen : s.generate.fmPaylen = s.fmPaylen := rfl
@[simp] theorem State.generate_fmHascrc : s.generate.fmHascrc = s.fmHascrc := rfl
@[simp] theorem State.generate_delayD : s.generate.delayD = s.delayD := rfl
@[simp] theorem State.generate_bus : s.generate.bus = s.bus := rfl
@[simp] theorem State.generate_busData : s.generate.busData = s.busData := rfl
@[simp] theorem State.generate_num : s.generate.num = s.num := rfl

/-! ### `setEstDone` -/

@[simp] theorem State.setEstDone_started : s.setEstDone.started = s.started := rfl
@[simp] theorem State.setEstDone_test : s.setEstDone.test = s.test := rfl
@[simp] theorem State.setEstDone_err : s.setEstDone.err = s.err := rfl
@[simp] theorem State.setEstDone_resyncCause : s.setEstDone.resyncCause = s.resyncCause := rfl
@[simp] theorem State.setEstDone_cfg : s.setEstDone.cfg = s.cfg := rfl
@[simp] theorem State.setEstDone_acq : s.setEstDone.acq = { s.acq with estDone := true } := rfl
@[simp] theorem State.setEstDone_mail : s.setEstDone.mail = s.mail := rfl
@[simp] theorem State.setEstDone_report : s.setEstDone.report = s.report := rfl
@[simp] theorem State.setEstDone_count : s.setEstDone.count = s.count := rfl
@[simp] theorem State.setEstDone_unit : s.setEstDone.unit = s.unit := rfl
@[simp] theorem State.setEstDone_mems : s.setEstDone.mems = s.mems := rfl
@[simp] theorem State.setEstDone_evq : s.setEstDone.evq = s.evq := rfl
@[simp] theorem State.setEstDone_fmPaylen : s.setEstDone.fmPaylen = s.fmPaylen := rfl
@[simp] theorem State.setEstDone_fmHascrc : s.setEstDone.fmHascrc = s.fmHascrc := rfl
@[simp] theorem State.setEstDone_delayD : s.setEstDone.delayD = s.delayD := rfl
@[simp] theorem State.setEstDone_bus : s.setEstDone.bus = s.bus := rfl
@[simp] theorem State.setEstDone_busData : s.setEstDone.busData = s.busData := rfl
@[simp] theorem State.setEstDone_num : s.setEstDone.num = s.num := rfl

/-! ### `clearReport` -/

@[simp] theorem State.clearReport_started : s.clearReport.started = s.started := rfl
@[simp] theorem State.clearReport_test : s.clearReport.test = s.test := rfl
@[simp] theorem State.clearReport_err : s.clearReport.err = s.err := rfl
@[simp] theorem State.clearReport_resyncCause : s.clearReport.resyncCause = s.resyncCause := rfl
@[simp] theorem State.clearReport_cfg : s.clearReport.cfg = s.cfg := rfl
@[simp] theorem State.clearReport_acq : s.clearReport.acq = s.acq := rfl
@[simp] theorem State.clearReport_mail : s.clearReport.mail = s.mail := rfl
@[simp] theorem State.clearReport_report : s.clearReport.report = { s.report with tagValid := false, produced := 0 } := rfl
@[simp] theorem State.clearReport_count : s.clearReport.count = s.count := rfl
@[simp] theorem State.clearReport_unit : s.clearReport.unit = s.unit := rfl
@[simp] theorem State.clearReport_mems : s.clearReport.mems = s.mems := rfl
@[simp] theorem State.clearReport_evq : s.clearReport.evq = s.evq := rfl
@[simp] theorem State.clearReport_fmPaylen : s.clearReport.fmPaylen = s.fmPaylen := rfl
@[simp] theorem State.clearReport_fmHascrc : s.clearReport.fmHascrc = s.fmHascrc := rfl
@[simp] theorem State.clearReport_delayD : s.clearReport.delayD = s.delayD := rfl
@[simp] theorem State.clearReport_bus : s.clearReport.bus = s.bus := rfl
@[simp] theorem State.clearReport_busData : s.clearReport.busData = s.busData := rfl
@[simp] theorem State.clearReport_num : s.clearReport.num = s.num := rfl

/-! ### `setConsumed` -/

@[simp] theorem State.setConsumed_started (v : Int) : (s.setConsumed v).started = s.started := rfl
@[simp] theorem State.setConsumed_test (v : Int) : (s.setConsumed v).test = s.test := rfl
@[simp] theorem State.setConsumed_err (v : Int) : (s.setConsumed v).err = s.err := rfl
@[simp] theorem State.setConsumed_resyncCause (v : Int) : (s.setConsumed v).resyncCause = s.resyncCause := rfl
@[simp] theorem State.setConsumed_cfg (v : Int) : (s.setConsumed v).cfg = s.cfg := rfl
@[simp] theorem State.setConsumed_acq (v : Int) : (s.setConsumed v).acq = s.acq := rfl
@[simp] theorem State.setConsumed_mail (v : Int) : (s.setConsumed v).mail = s.mail := rfl
@[simp] theorem State.setConsumed_report (v : Int) : (s.setConsumed v).report = { s.report with consumed := intWord v } := rfl
@[simp] theorem State.setConsumed_count (v : Int) : (s.setConsumed v).count = s.count := rfl
@[simp] theorem State.setConsumed_unit (v : Int) : (s.setConsumed v).unit = s.unit := rfl
@[simp] theorem State.setConsumed_mems (v : Int) : (s.setConsumed v).mems = s.mems := rfl
@[simp] theorem State.setConsumed_evq (v : Int) : (s.setConsumed v).evq = s.evq := rfl
@[simp] theorem State.setConsumed_fmPaylen (v : Int) : (s.setConsumed v).fmPaylen = s.fmPaylen := rfl
@[simp] theorem State.setConsumed_fmHascrc (v : Int) : (s.setConsumed v).fmHascrc = s.fmHascrc := rfl
@[simp] theorem State.setConsumed_delayD (v : Int) : (s.setConsumed v).delayD = s.delayD := rfl
@[simp] theorem State.setConsumed_bus (v : Int) : (s.setConsumed v).bus = s.bus := rfl
@[simp] theorem State.setConsumed_busData (v : Int) : (s.setConsumed v).busData = s.busData := rfl
@[simp] theorem State.setConsumed_num (v : Int) : (s.setConsumed v).num = s.num := rfl

/-! ### `consume` -/

@[simp] theorem State.consume_started (v : Int) : (s.consume v).started = s.started := rfl
@[simp] theorem State.consume_test (v : Int) : (s.consume v).test = s.test := rfl
@[simp] theorem State.consume_err (v : Int) : (s.consume v).err = s.err := rfl
@[simp] theorem State.consume_resyncCause (v : Int) : (s.consume v).resyncCause = s.resyncCause := rfl
@[simp] theorem State.consume_cfg (v : Int) : (s.consume v).cfg = s.cfg := rfl
@[simp] theorem State.consume_acq (v : Int) : (s.consume v).acq = s.acq := rfl
@[simp] theorem State.consume_mail (v : Int) : (s.consume v).mail = s.mail := rfl
@[simp] theorem State.consume_report (v : Int) : (s.consume v).report = { s.report with consumed := intWord (s.os * v) } := rfl
@[simp] theorem State.consume_count (v : Int) : (s.consume v).count = s.count := rfl
@[simp] theorem State.consume_unit (v : Int) : (s.consume v).unit = s.unit := rfl
@[simp] theorem State.consume_mems (v : Int) : (s.consume v).mems = s.mems := rfl
@[simp] theorem State.consume_evq (v : Int) : (s.consume v).evq = s.evq := rfl
@[simp] theorem State.consume_fmPaylen (v : Int) : (s.consume v).fmPaylen = s.fmPaylen := rfl
@[simp] theorem State.consume_fmHascrc (v : Int) : (s.consume v).fmHascrc = s.fmHascrc := rfl
@[simp] theorem State.consume_delayD (v : Int) : (s.consume v).delayD = s.delayD := rfl
@[simp] theorem State.consume_bus (v : Int) : (s.consume v).bus = s.bus := rfl
@[simp] theorem State.consume_busData (v : Int) : (s.consume v).busData = s.busData := rfl
@[simp] theorem State.consume_num (v : Int) : (s.consume v).num = s.num := rfl

/-! ### `noProgress` -/

@[simp] theorem State.noProgress_started : s.noProgress.started = s.started := rfl
@[simp] theorem State.noProgress_test : s.noProgress.test = s.test := rfl
@[simp] theorem State.noProgress_err : s.noProgress.err = s.err := rfl
@[simp] theorem State.noProgress_resyncCause : s.noProgress.resyncCause = s.resyncCause := rfl
@[simp] theorem State.noProgress_cfg : s.noProgress.cfg = s.cfg := rfl
@[simp] theorem State.noProgress_acq : s.noProgress.acq = s.acq := rfl
@[simp] theorem State.noProgress_mail : s.noProgress.mail = s.mail := rfl
@[simp] theorem State.noProgress_report : s.noProgress.report = { s.report with tagValid := false, produced := 0, consumed := intWord 0 } := rfl
@[simp] theorem State.noProgress_count : s.noProgress.count = s.count := rfl
@[simp] theorem State.noProgress_unit : s.noProgress.unit = s.unit := rfl
@[simp] theorem State.noProgress_mems : s.noProgress.mems = s.mems := rfl
@[simp] theorem State.noProgress_evq : s.noProgress.evq = s.evq := rfl
@[simp] theorem State.noProgress_fmPaylen : s.noProgress.fmPaylen = s.fmPaylen := rfl
@[simp] theorem State.noProgress_fmHascrc : s.noProgress.fmHascrc = s.fmHascrc := rfl
@[simp] theorem State.noProgress_delayD : s.noProgress.delayD = s.delayD := rfl
@[simp] theorem State.noProgress_bus : s.noProgress.bus = s.bus := rfl
@[simp] theorem State.noProgress_busData : s.noProgress.busData = s.busData := rfl
@[simp] theorem State.noProgress_num : s.noProgress.num = s.num := rfl

/-! ### `emitTag` -/

@[simp] theorem State.emitTag_started (v : Word) : (s.emitTag v).started = s.started := rfl
@[simp] theorem State.emitTag_test (v : Word) : (s.emitTag v).test = s.test := rfl
@[simp] theorem State.emitTag_err (v : Word) : (s.emitTag v).err = s.err := rfl
@[simp] theorem State.emitTag_resyncCause (v : Word) : (s.emitTag v).resyncCause = s.resyncCause := rfl
@[simp] theorem State.emitTag_cfg (v : Word) : (s.emitTag v).cfg = s.cfg := rfl
@[simp] theorem State.emitTag_acq (v : Word) : (s.emitTag v).acq = s.acq := rfl
@[simp] theorem State.emitTag_mail (v : Word) : (s.emitTag v).mail = s.mail := rfl
@[simp] theorem State.emitTag_report (v : Word) : (s.emitTag v).report = { s.report with tagValid := true, tagOffset := s.count.outCount, tagCfoint := v } := rfl
@[simp] theorem State.emitTag_count (v : Word) : (s.emitTag v).count = s.count := rfl
@[simp] theorem State.emitTag_unit (v : Word) : (s.emitTag v).unit = s.unit := rfl
@[simp] theorem State.emitTag_mems (v : Word) : (s.emitTag v).mems = s.mems := rfl
@[simp] theorem State.emitTag_evq (v : Word) : (s.emitTag v).evq = s.evq := rfl
@[simp] theorem State.emitTag_fmPaylen (v : Word) : (s.emitTag v).fmPaylen = s.fmPaylen := rfl
@[simp] theorem State.emitTag_fmHascrc (v : Word) : (s.emitTag v).fmHascrc = s.fmHascrc := rfl
@[simp] theorem State.emitTag_delayD (v : Word) : (s.emitTag v).delayD = s.delayD := rfl
@[simp] theorem State.emitTag_bus (v : Word) : (s.emitTag v).bus = s.bus := rfl
@[simp] theorem State.emitTag_busData (v : Word) : (s.emitTag v).busData = s.busData := rfl
@[simp] theorem State.emitTag_num (v : Word) : (s.emitTag v).num = s.num := rfl

/-! ### `countUp` -/

@[simp] theorem State.countUp_started : s.countUp.started = s.started := rfl
@[simp] theorem State.countUp_test : s.countUp.test = s.test := rfl
@[simp] theorem State.countUp_err : s.countUp.err = s.err := rfl
@[simp] theorem State.countUp_resyncCause : s.countUp.resyncCause = s.resyncCause := rfl
@[simp] theorem State.countUp_cfg : s.countUp.cfg = s.cfg := rfl
@[simp] theorem State.countUp_acq : s.countUp.acq = s.acq := rfl
@[simp] theorem State.countUp_mail : s.countUp.mail = s.mail := rfl
@[simp] theorem State.countUp_report : s.countUp.report = s.report := rfl
@[simp] theorem State.countUp_count : s.countUp.count = { s.count with inCount := s.count.inCount + s.report.consumed.setWidth 64, outCount := s.count.outCount + s.report.produced.setWidth 64 } := rfl
@[simp] theorem State.countUp_unit : s.countUp.unit = s.unit := rfl
@[simp] theorem State.countUp_mems : s.countUp.mems = s.mems := rfl
@[simp] theorem State.countUp_evq : s.countUp.evq = s.evq := rfl
@[simp] theorem State.countUp_fmPaylen : s.countUp.fmPaylen = s.fmPaylen := rfl
@[simp] theorem State.countUp_fmHascrc : s.countUp.fmHascrc = s.fmHascrc := rfl
@[simp] theorem State.countUp_delayD : s.countUp.delayD = s.delayD := rfl
@[simp] theorem State.countUp_bus : s.countUp.bus = s.bus := rfl
@[simp] theorem State.countUp_busData : s.countUp.busData = s.busData := rfl
@[simp] theorem State.countUp_num : s.countUp.num = s.num := rfl

/-! ### `setCorrelator` -/

@[simp] theorem State.setCorrelator_started (be : Option Nat × Word) : (s.setCorrelator be).started = s.started := rfl
@[simp] theorem State.setCorrelator_test (be : Option Nat × Word) : (s.setCorrelator be).test = s.test := rfl
@[simp] theorem State.setCorrelator_err (be : Option Nat × Word) : (s.setCorrelator be).err = s.err := rfl
@[simp] theorem State.setCorrelator_resyncCause (be : Option Nat × Word) : (s.setCorrelator be).resyncCause = s.resyncCause := rfl
@[simp] theorem State.setCorrelator_cfg (be : Option Nat × Word) : (s.setCorrelator be).cfg = s.cfg := rfl
@[simp] theorem State.setCorrelator_acq (be : Option Nat × Word) : (s.setCorrelator be).acq = s.acq := rfl
@[simp] theorem State.setCorrelator_mail (be : Option Nat × Word) : (s.setCorrelator be).mail = s.mail := rfl
@[simp] theorem State.setCorrelator_report (be : Option Nat × Word) : (s.setCorrelator be).report = s.report := rfl
@[simp] theorem State.setCorrelator_count (be : Option Nat × Word) : (s.setCorrelator be).count = s.count := rfl
@[simp] theorem State.setCorrelator_unit (be : Option Nat × Word) : (s.setCorrelator be).unit = { s.unit with rBin := binWord be.1, rEnergy := be.2 } := rfl
@[simp] theorem State.setCorrelator_mems (be : Option Nat × Word) : (s.setCorrelator be).mems = s.mems := rfl
@[simp] theorem State.setCorrelator_evq (be : Option Nat × Word) : (s.setCorrelator be).evq = s.evq := rfl
@[simp] theorem State.setCorrelator_fmPaylen (be : Option Nat × Word) : (s.setCorrelator be).fmPaylen = s.fmPaylen := rfl
@[simp] theorem State.setCorrelator_fmHascrc (be : Option Nat × Word) : (s.setCorrelator be).fmHascrc = s.fmHascrc := rfl
@[simp] theorem State.setCorrelator_delayD (be : Option Nat × Word) : (s.setCorrelator be).delayD = s.delayD := rfl
@[simp] theorem State.setCorrelator_bus (be : Option Nat × Word) : (s.setCorrelator be).bus = s.bus := rfl
@[simp] theorem State.setCorrelator_busData (be : Option Nat × Word) : (s.setCorrelator be).busData = s.busData := rfl
@[simp] theorem State.setCorrelator_num (be : Option Nat × Word) : (s.setCorrelator be).num = s.num := rfl

/-! ### `setPeak` -/

@[simp] theorem State.setPeak_started (p : Peak Word) (ka : Word) : (s.setPeak p ka).started = s.started := rfl
@[simp] theorem State.setPeak_test (p : Peak Word) (ka : Word) : (s.setPeak p ka).test = s.test := rfl
@[simp] theorem State.setPeak_err (p : Peak Word) (ka : Word) : (s.setPeak p ka).err = s.err := rfl
@[simp] theorem State.setPeak_resyncCause (p : Peak Word) (ka : Word) : (s.setPeak p ka).resyncCause = s.resyncCause := rfl
@[simp] theorem State.setPeak_cfg (p : Peak Word) (ka : Word) : (s.setPeak p ka).cfg = s.cfg := rfl
@[simp] theorem State.setPeak_acq (p : Peak Word) (ka : Word) : (s.setPeak p ka).acq = s.acq := rfl
@[simp] theorem State.setPeak_mail (p : Peak Word) (ka : Word) : (s.setPeak p ka).mail = s.mail := rfl
@[simp] theorem State.setPeak_report (p : Peak Word) (ka : Word) : (s.setPeak p ka).report = s.report := rfl
@[simp] theorem State.setPeak_count (p : Peak Word) (ka : Word) : (s.setPeak p ka).count = s.count := rfl
@[simp] theorem State.setPeak_unit (p : Peak Word) (ka : Word) : (s.setPeak p ka).unit = { s.unit with rK0 := BitVec.ofNat 32 p.k0, opYm1 := p.ym1, opY0 := p.y0, opYp1 := p.yp1, rKa := ka } := rfl
@[simp] theorem State.setPeak_mems (p : Peak Word) (ka : Word) : (s.setPeak p ka).mems = s.mems := rfl
@[simp] theorem State.setPeak_evq (p : Peak Word) (ka : Word) : (s.setPeak p ka).evq = s.evq := rfl
@[simp] theorem State.setPeak_fmPaylen (p : Peak Word) (ka : Word) : (s.setPeak p ka).fmPaylen = s.fmPaylen := rfl
@[simp] theorem State.setPeak_fmHascrc (p : Peak Word) (ka : Word) : (s.setPeak p ka).fmHascrc = s.fmHascrc := rfl
@[simp] theorem State.setPeak_delayD (p : Peak Word) (ka : Word) : (s.setPeak p ka).delayD = s.delayD := rfl
@[simp] theorem State.setPeak_bus (p : Peak Word) (ka : Word) : (s.setPeak p ka).bus = s.bus := rfl
@[simp] theorem State.setPeak_busData (p : Peak Word) (ka : Word) : (s.setPeak p ka).busData = s.busData := rfl
@[simp] theorem State.setPeak_num (p : Peak Word) (ka : Word) : (s.setPeak p ka).num = s.num := rfl

/-! ### `interpolate` -/

@[simp] theorem State.interpolate_started : s.interpolate.started = s.started := rfl
@[simp] theorem State.interpolate_test : s.interpolate.test = s.test := rfl
@[simp] theorem State.interpolate_err : s.interpolate.err = s.err := rfl
@[simp] theorem State.interpolate_resyncCause : s.interpolate.resyncCause = s.resyncCause := rfl
@[simp] theorem State.interpolate_cfg : s.interpolate.cfg = s.cfg := rfl
@[simp] theorem State.interpolate_acq : s.interpolate.acq = s.acq := rfl
@[simp] theorem State.interpolate_mail : s.interpolate.mail = s.mail := rfl
@[simp] theorem State.interpolate_report : s.interpolate.report = s.report := rfl
@[simp] theorem State.interpolate_count : s.interpolate.count = s.count := rfl
@[simp] theorem State.interpolate_unit : s.interpolate.unit = { s.unit with rKa := s.nums.interp3 s.unit.opYm1 s.unit.opY0 s.unit.opYp1 } := rfl
@[simp] theorem State.interpolate_mems : s.interpolate.mems = s.mems := rfl
@[simp] theorem State.interpolate_evq : s.interpolate.evq = s.evq := rfl
@[simp] theorem State.interpolate_fmPaylen : s.interpolate.fmPaylen = s.fmPaylen := rfl
@[simp] theorem State.interpolate_fmHascrc : s.interpolate.fmHascrc = s.fmHascrc := rfl
@[simp] theorem State.interpolate_delayD : s.interpolate.delayD = s.delayD := rfl
@[simp] theorem State.interpolate_bus : s.interpolate.bus = s.bus := rfl
@[simp] theorem State.interpolate_busData : s.interpolate.busData = s.busData := rfl
@[simp] theorem State.interpolate_num : s.interpolate.num = s.num := rfl

/-! ### `setCfo` -/

@[simp] theorem State.setCfo_started (r : CfoResult Word) : (s.setCfo r).started = s.started := rfl
@[simp] theorem State.setCfo_test (r : CfoResult Word) : (s.setCfo r).test = s.test := rfl
@[simp] theorem State.setCfo_err (r : CfoResult Word) : (s.setCfo r).err = s.err := rfl
@[simp] theorem State.setCfo_resyncCause (r : CfoResult Word) : (s.setCfo r).resyncCause = s.resyncCause := rfl
@[simp] theorem State.setCfo_cfg (r : CfoResult Word) : (s.setCfo r).cfg = s.cfg := rfl
@[simp] theorem State.setCfo_acq (r : CfoResult Word) : (s.setCfo r).acq = { s.acq with lambdaCfo := r.lambda } := rfl
@[simp] theorem State.setCfo_mail (r : CfoResult Word) : (s.setCfo r).mail = s.mail := rfl
@[simp] theorem State.setCfo_report (r : CfoResult Word) : (s.setCfo r).report = s.report := rfl
@[simp] theorem State.setCfo_count (r : CfoResult Word) : (s.setCfo r).count = s.count := rfl
@[simp] theorem State.setCfo_unit (r : CfoResult Word) : (s.setCfo r).unit = { s.unit with rK0 := BitVec.ofNat 32 r.peak.k0, opYm1 := r.peak.ym1, opY0 := r.peak.y0, opYp1 := r.peak.yp1, rKa := r.ka } := rfl
@[simp] theorem State.setCfo_evq (r : CfoResult Word) : (s.setCfo r).evq = s.evq := rfl
@[simp] theorem State.setCfo_fmPaylen (r : CfoResult Word) : (s.setCfo r).fmPaylen = s.fmPaylen := rfl
@[simp] theorem State.setCfo_fmHascrc (r : CfoResult Word) : (s.setCfo r).fmHascrc = s.fmHascrc := rfl
@[simp] theorem State.setCfo_delayD (r : CfoResult Word) : (s.setCfo r).delayD = s.delayD := rfl
@[simp] theorem State.setCfo_bus (r : CfoResult Word) : (s.setCfo r).bus = s.bus := rfl
@[simp] theorem State.setCfo_busData (r : CfoResult Word) : (s.setCfo r).busData = s.busData := rfl
@[simp] theorem State.setCfo_num (r : CfoResult Word) : (s.setCfo r).num = s.num := rfl

/-! ### `setAlt` -/

@[simp] theorem State.setAlt_started (r : Word × Nat) : (s.setAlt r).started = s.started := rfl
@[simp] theorem State.setAlt_test (r : Word × Nat) : (s.setAlt r).test = s.test := rfl
@[simp] theorem State.setAlt_err (r : Word × Nat) : (s.setAlt r).err = s.err := rfl
@[simp] theorem State.setAlt_resyncCause (r : Word × Nat) : (s.setAlt r).resyncCause = s.resyncCause := rfl
@[simp] theorem State.setAlt_cfg (r : Word × Nat) : (s.setAlt r).cfg = s.cfg := rfl
@[simp] theorem State.setAlt_acq (r : Word × Nat) : (s.setAlt r).acq = s.acq := rfl
@[simp] theorem State.setAlt_mail (r : Word × Nat) : (s.setAlt r).mail = s.mail := rfl
@[simp] theorem State.setAlt_report (r : Word × Nat) : (s.setAlt r).report = s.report := rfl
@[simp] theorem State.setAlt_count (r : Word × Nat) : (s.setAlt r).count = s.count := rfl
@[simp] theorem State.setAlt_unit (r : Word × Nat) : (s.setAlt r).unit = { s.unit with rAlt := r.1, rK0 := BitVec.ofNat 32 r.2 } := rfl
@[simp] theorem State.setAlt_mems (r : Word × Nat) : (s.setAlt r).mems = s.mems := rfl
@[simp] theorem State.setAlt_evq (r : Word × Nat) : (s.setAlt r).evq = s.evq := rfl
@[simp] theorem State.setAlt_fmPaylen (r : Word × Nat) : (s.setAlt r).fmPaylen = s.fmPaylen := rfl
@[simp] theorem State.setAlt_fmHascrc (r : Word × Nat) : (s.setAlt r).fmHascrc = s.fmHascrc := rfl
@[simp] theorem State.setAlt_delayD (r : Word × Nat) : (s.setAlt r).delayD = s.delayD := rfl
@[simp] theorem State.setAlt_bus (r : Word × Nat) : (s.setAlt r).bus = s.bus := rfl
@[simp] theorem State.setAlt_busData (r : Word × Nat) : (s.setAlt r).busData = s.busData := rfl
@[simp] theorem State.setAlt_num (r : Word × Nat) : (s.setAlt r).num = s.num := rfl

/-! ### `setSto` -/

@[simp] theorem State.setSto_started (r : Peak Word × Word × Word) : (s.setSto r).started = s.started := rfl
@[simp] theorem State.setSto_test (r : Peak Word × Word × Word) : (s.setSto r).test = s.test := rfl
@[simp] theorem State.setSto_err (r : Peak Word × Word × Word) : (s.setSto r).err = s.err := rfl
@[simp] theorem State.setSto_resyncCause (r : Peak Word × Word × Word) : (s.setSto r).resyncCause = s.resyncCause := rfl
@[simp] theorem State.setSto_cfg (r : Peak Word × Word × Word) : (s.setSto r).cfg = s.cfg := rfl
@[simp] theorem State.setSto_acq (r : Peak Word × Word × Word) : (s.setSto r).acq = { s.acq with lambdaSto := r.2.2 } := rfl
@[simp] theorem State.setSto_mail (r : Peak Word × Word × Word) : (s.setSto r).mail = s.mail := rfl
@[simp] theorem State.setSto_report (r : Peak Word × Word × Word) : (s.setSto r).report = s.report := rfl
@[simp] theorem State.setSto_count (r : Peak Word × Word × Word) : (s.setSto r).count = s.count := rfl
@[simp] theorem State.setSto_unit (r : Peak Word × Word × Word) : (s.setSto r).unit = { s.unit with rK0 := BitVec.ofNat 32 r.1.k0, opYm1 := r.1.ym1, opY0 := r.1.y0, opYp1 := r.1.yp1, rKa := r.2.1 } := rfl
@[simp] theorem State.setSto_mems (r : Peak Word × Word × Word) : (s.setSto r).mems = s.mems := rfl
@[simp] theorem State.setSto_evq (r : Peak Word × Word × Word) : (s.setSto r).evq = s.evq := rfl
@[simp] theorem State.setSto_fmPaylen (r : Peak Word × Word × Word) : (s.setSto r).fmPaylen = s.fmPaylen := rfl
@[simp] theorem State.setSto_fmHascrc (r : Peak Word × Word × Word) : (s.setSto r).fmHascrc = s.fmHascrc := rfl
@[simp] theorem State.setSto_delayD (r : Peak Word × Word × Word) : (s.setSto r).delayD = s.delayD := rfl
@[simp] theorem State.setSto_bus (r : Peak Word × Word × Word) : (s.setSto r).bus = s.bus := rfl
@[simp] theorem State.setSto_busData (r : Peak Word × Word × Word) : (s.setSto r).busData = s.busData := rfl
@[simp] theorem State.setSto_num (r : Peak Word × Word × Word) : (s.setSto r).num = s.num := rfl

/-! ### `setTap` -/

@[simp] theorem State.setTap_started : s.setTap.started = s.started := rfl
@[simp] theorem State.setTap_test : s.setTap.test = s.test := rfl
@[simp] theorem State.setTap_err : s.setTap.err = s.err := rfl
@[simp] theorem State.setTap_resyncCause : s.setTap.resyncCause = s.resyncCause := rfl
@[simp] theorem State.setTap_cfg : s.setTap.cfg = s.cfg := rfl
@[simp] theorem State.setTap_acq : s.setTap.acq = s.acq := rfl
@[simp] theorem State.setTap_mail : s.setTap.mail = s.mail := rfl
@[simp] theorem State.setTap_report : s.setTap.report = s.report := rfl
@[simp] theorem State.setTap_count : s.setTap.count = s.count := rfl
@[simp] theorem State.setTap_unit : s.setTap.unit = s.unit := rfl
@[simp] theorem State.setTap_mems : s.setTap.mems = s.mems := rfl
@[simp] theorem State.setTap_evq : s.setTap.evq = s.evq := rfl
@[simp] theorem State.setTap_fmPaylen : s.setTap.fmPaylen = s.fmPaylen := rfl
@[simp] theorem State.setTap_fmHascrc : s.setTap.fmHascrc = s.fmHascrc := rfl
@[simp] theorem State.setTap_delayD : s.setTap.delayD = intWord (s.nums.tap s.acq.lambdaSto s.os) := rfl
@[simp] theorem State.setTap_bus : s.setTap.bus = s.bus := rfl
@[simp] theorem State.setTap_busData : s.setTap.busData = s.busData := rfl
@[simp] theorem State.setTap_num : s.setTap.num = s.num := rfl

/-! ### `resync` -/

@[simp] theorem State.resync_started (c : Cause) : (s.resync c).started = s.started := rfl
@[simp] theorem State.resync_test (c : Cause) : (s.resync c).test = s.test := rfl
@[simp] theorem State.resync_err (c : Cause) : (s.resync c).err = s.err := rfl
@[simp] theorem State.resync_resyncCause (c : Cause) : (s.resync c).resyncCause = c := rfl
@[simp] theorem State.resync_cfg (c : Cause) : (s.resync c).cfg = s.cfg := rfl
@[simp] theorem State.resync_acq (c : Cause) : (s.resync c).acq = Acq.neutral s.cfg.hdrSyms := rfl
@[simp] theorem State.resync_mail (c : Cause) : (s.resync c).mail = s.mail := rfl
@[simp] theorem State.resync_report (c : Cause) : (s.resync c).report = s.report := rfl
@[simp] theorem State.resync_count (c : Cause) : (s.resync c).count = { s.count with resyncCount := s.count.resyncCount + 1 } := rfl
@[simp] theorem State.resync_unit (c : Cause) : (s.resync c).unit = s.unit := rfl
@[simp] theorem State.resync_evq (c : Cause) : (s.resync c).evq = s.evq := rfl
@[simp] theorem State.resync_fmPaylen (c : Cause) : (s.resync c).fmPaylen = s.fmPaylen := rfl
@[simp] theorem State.resync_fmHascrc (c : Cause) : (s.resync c).fmHascrc = s.fmHascrc := rfl
@[simp] theorem State.resync_delayD (c : Cause) : (s.resync c).delayD = s.delayD := rfl
@[simp] theorem State.resync_bus (c : Cause) : (s.resync c).bus = s.bus := rfl
@[simp] theorem State.resync_busData (c : Cause) : (s.resync c).busData = s.busData := rfl
@[simp] theorem State.resync_num (c : Cause) : (s.resync c).num = s.num := rfl

/-! ### `enterSync` -/

@[simp] theorem State.enterSync_started : s.enterSync.started = s.started := rfl
@[simp] theorem State.enterSync_test : s.enterSync.test = s.test := rfl
@[simp] theorem State.enterSync_err : s.enterSync.err = s.err := rfl
@[simp] theorem State.enterSync_resyncCause : s.enterSync.resyncCause = s.resyncCause := rfl
@[simp] theorem State.enterSync_cfg : s.enterSync.cfg = s.cfg := rfl
@[simp] theorem State.enterSync_acq : s.enterSync.acq = { s.acq with kHat := intWord (roundHazFrac s.acq.kHat.toNat (s.nup - 1)), state := .sync, syncPos := .netId1, estDone := false } := rfl
@[simp] theorem State.enterSync_mail : s.enterSync.mail = s.mail := rfl
@[simp] theorem State.enterSync_count : s.enterSync.count = s.count := rfl
@[simp] theorem State.enterSync_unit : s.enterSync.unit = s.unit := rfl
@[simp] theorem State.enterSync_mems : s.enterSync.mems = s.mems := rfl
@[simp] theorem State.enterSync_evq : s.enterSync.evq = s.evq := rfl
@[simp] theorem State.enterSync_fmPaylen : s.enterSync.fmPaylen = s.fmPaylen := rfl
@[simp] theorem State.enterSync_fmHascrc : s.enterSync.fmHascrc = s.fmHascrc := rfl
@[simp] theorem State.enterSync_delayD : s.enterSync.delayD = s.delayD := rfl
@[simp] theorem State.enterSync_bus : s.enterSync.bus = s.bus := rfl
@[simp] theorem State.enterSync_busData : s.enterSync.busData = s.busData := rfl
@[simp] theorem State.enterSync_num : s.enterSync.num = s.num := rfl

/-! ### The parameters and the numerics depend on `cfg` and `num` alone -/

@[simp] theorem State.setErr_n (c : ErrCode) : (s.setErr c).n = s.n := rfl
@[simp] theorem State.setErr_os (c : ErrCode) : (s.setErr c).os = s.os := rfl
@[simp] theorem State.setErr_nup (c : ErrCode) : (s.setErr c).nup = s.nup := rfl
@[simp] theorem State.setErr_nused (c : ErrCode) : (s.setErr c).nused = s.nused := rfl
@[simp] theorem State.setErr_winReq (c : ErrCode) : (s.setErr c).winReq = s.winReq := rfl
@[simp] theorem State.setErr_nums (c : ErrCode) : (s.setErr c).nums = s.nums := rfl

@[simp] theorem State.setBus_n (ops : List BusOp) : (s.setBus ops).n = s.n := rfl
@[simp] theorem State.setBus_os (ops : List BusOp) : (s.setBus ops).os = s.os := rfl
@[simp] theorem State.setBus_nup (ops : List BusOp) : (s.setBus ops).nup = s.nup := rfl
@[simp] theorem State.setBus_nused (ops : List BusOp) : (s.setBus ops).nused = s.nused := rfl
@[simp] theorem State.setBus_winReq (ops : List BusOp) : (s.setBus ops).winReq = s.winReq := rfl
@[simp] theorem State.setBus_nums (ops : List BusOp) : (s.setBus ops).nums = s.nums := rfl

@[simp] theorem State.setBusData_n (w : Word) : (s.setBusData w).n = s.n := rfl
@[simp] theorem State.setBusData_os (w : Word) : (s.setBusData w).os = s.os := rfl
@[simp] theorem State.setBusData_nup (w : Word) : (s.setBusData w).nup = s.nup := rfl
@[simp] theorem State.setBusData_nused (w : Word) : (s.setBusData w).nused = s.nused := rfl
@[simp] theorem State.setBusData_winReq (w : Word) : (s.setBusData w).winReq = s.winReq := rfl
@[simp] theorem State.setBusData_nums (w : Word) : (s.setBusData w).nums = s.nums := rfl

@[simp] theorem State.setMem_n (sp : Space) (m : Mem) : (s.setMem sp m).n = s.n := rfl
@[simp] theorem State.setMem_os (sp : Space) (m : Mem) : (s.setMem sp m).os = s.os := rfl
@[simp] theorem State.setMem_nup (sp : Space) (m : Mem) : (s.setMem sp m).nup = s.nup := rfl
@[simp] theorem State.setMem_nused (sp : Space) (m : Mem) : (s.setMem sp m).nused = s.nused := rfl
@[simp] theorem State.setMem_winReq (sp : Space) (m : Mem) : (s.setMem sp m).winReq = s.winReq := rfl
@[simp] theorem State.setMem_nums (sp : Space) (m : Mem) : (s.setMem sp m).nums = s.nums := rfl

@[simp] theorem State.storeElems_n (sp : Space) (i : Nat) (xs : List Sample) : (s.storeElems sp i xs).n = s.n := rfl
@[simp] theorem State.storeElems_os (sp : Space) (i : Nat) (xs : List Sample) : (s.storeElems sp i xs).os = s.os := rfl
@[simp] theorem State.storeElems_nup (sp : Space) (i : Nat) (xs : List Sample) : (s.storeElems sp i xs).nup = s.nup := rfl
@[simp] theorem State.storeElems_nused (sp : Space) (i : Nat) (xs : List Sample) : (s.storeElems sp i xs).nused = s.nused := rfl
@[simp] theorem State.storeElems_winReq (sp : Space) (i : Nat) (xs : List Sample) : (s.storeElems sp i xs).winReq = s.winReq := rfl
@[simp] theorem State.storeElems_nums (sp : Space) (i : Nat) (xs : List Sample) : (s.storeElems sp i xs).nums = s.nums := rfl

@[simp] theorem State.generate_n : s.generate.n = s.n := rfl
@[simp] theorem State.generate_os : s.generate.os = s.os := rfl
@[simp] theorem State.generate_nup : s.generate.nup = s.nup := rfl
@[simp] theorem State.generate_nused : s.generate.nused = s.nused := rfl
@[simp] theorem State.generate_winReq : s.generate.winReq = s.winReq := rfl
@[simp] theorem State.generate_nums : s.generate.nums = s.nums := rfl

@[simp] theorem State.setEstDone_n : s.setEstDone.n = s.n := rfl
@[simp] theorem State.setEstDone_os : s.setEstDone.os = s.os := rfl
@[simp] theorem State.setEstDone_nup : s.setEstDone.nup = s.nup := rfl
@[simp] theorem State.setEstDone_nused : s.setEstDone.nused = s.nused := rfl
@[simp] theorem State.setEstDone_winReq : s.setEstDone.winReq = s.winReq := rfl
@[simp] theorem State.setEstDone_nums : s.setEstDone.nums = s.nums := rfl

@[simp] theorem State.clearReport_n : s.clearReport.n = s.n := rfl
@[simp] theorem State.clearReport_os : s.clearReport.os = s.os := rfl
@[simp] theorem State.clearReport_nup : s.clearReport.nup = s.nup := rfl
@[simp] theorem State.clearReport_nused : s.clearReport.nused = s.nused := rfl
@[simp] theorem State.clearReport_winReq : s.clearReport.winReq = s.winReq := rfl
@[simp] theorem State.clearReport_nums : s.clearReport.nums = s.nums := rfl

@[simp] theorem State.setConsumed_n (v : Int) : (s.setConsumed v).n = s.n := rfl
@[simp] theorem State.setConsumed_os (v : Int) : (s.setConsumed v).os = s.os := rfl
@[simp] theorem State.setConsumed_nup (v : Int) : (s.setConsumed v).nup = s.nup := rfl
@[simp] theorem State.setConsumed_nused (v : Int) : (s.setConsumed v).nused = s.nused := rfl
@[simp] theorem State.setConsumed_winReq (v : Int) : (s.setConsumed v).winReq = s.winReq := rfl
@[simp] theorem State.setConsumed_nums (v : Int) : (s.setConsumed v).nums = s.nums := rfl

@[simp] theorem State.consume_n (v : Int) : (s.consume v).n = s.n := rfl
@[simp] theorem State.consume_os (v : Int) : (s.consume v).os = s.os := rfl
@[simp] theorem State.consume_nup (v : Int) : (s.consume v).nup = s.nup := rfl
@[simp] theorem State.consume_nused (v : Int) : (s.consume v).nused = s.nused := rfl
@[simp] theorem State.consume_winReq (v : Int) : (s.consume v).winReq = s.winReq := rfl
@[simp] theorem State.consume_nums (v : Int) : (s.consume v).nums = s.nums := rfl

@[simp] theorem State.noProgress_n : s.noProgress.n = s.n := rfl
@[simp] theorem State.noProgress_os : s.noProgress.os = s.os := rfl
@[simp] theorem State.noProgress_nup : s.noProgress.nup = s.nup := rfl
@[simp] theorem State.noProgress_nused : s.noProgress.nused = s.nused := rfl
@[simp] theorem State.noProgress_winReq : s.noProgress.winReq = s.winReq := rfl
@[simp] theorem State.noProgress_nums : s.noProgress.nums = s.nums := rfl

@[simp] theorem State.emitTag_n (v : Word) : (s.emitTag v).n = s.n := rfl
@[simp] theorem State.emitTag_os (v : Word) : (s.emitTag v).os = s.os := rfl
@[simp] theorem State.emitTag_nup (v : Word) : (s.emitTag v).nup = s.nup := rfl
@[simp] theorem State.emitTag_nused (v : Word) : (s.emitTag v).nused = s.nused := rfl
@[simp] theorem State.emitTag_winReq (v : Word) : (s.emitTag v).winReq = s.winReq := rfl
@[simp] theorem State.emitTag_nums (v : Word) : (s.emitTag v).nums = s.nums := rfl

@[simp] theorem State.countUp_n : s.countUp.n = s.n := rfl
@[simp] theorem State.countUp_os : s.countUp.os = s.os := rfl
@[simp] theorem State.countUp_nup : s.countUp.nup = s.nup := rfl
@[simp] theorem State.countUp_nused : s.countUp.nused = s.nused := rfl
@[simp] theorem State.countUp_winReq : s.countUp.winReq = s.winReq := rfl
@[simp] theorem State.countUp_nums : s.countUp.nums = s.nums := rfl

@[simp] theorem State.setCorrelator_n (be : Option Nat × Word) : (s.setCorrelator be).n = s.n := rfl
@[simp] theorem State.setCorrelator_os (be : Option Nat × Word) : (s.setCorrelator be).os = s.os := rfl
@[simp] theorem State.setCorrelator_nup (be : Option Nat × Word) : (s.setCorrelator be).nup = s.nup := rfl
@[simp] theorem State.setCorrelator_nused (be : Option Nat × Word) : (s.setCorrelator be).nused = s.nused := rfl
@[simp] theorem State.setCorrelator_winReq (be : Option Nat × Word) : (s.setCorrelator be).winReq = s.winReq := rfl
@[simp] theorem State.setCorrelator_nums (be : Option Nat × Word) : (s.setCorrelator be).nums = s.nums := rfl

@[simp] theorem State.setPeak_n (p : Peak Word) (ka : Word) : (s.setPeak p ka).n = s.n := rfl
@[simp] theorem State.setPeak_os (p : Peak Word) (ka : Word) : (s.setPeak p ka).os = s.os := rfl
@[simp] theorem State.setPeak_nup (p : Peak Word) (ka : Word) : (s.setPeak p ka).nup = s.nup := rfl
@[simp] theorem State.setPeak_nused (p : Peak Word) (ka : Word) : (s.setPeak p ka).nused = s.nused := rfl
@[simp] theorem State.setPeak_winReq (p : Peak Word) (ka : Word) : (s.setPeak p ka).winReq = s.winReq := rfl
@[simp] theorem State.setPeak_nums (p : Peak Word) (ka : Word) : (s.setPeak p ka).nums = s.nums := rfl

@[simp] theorem State.interpolate_n : s.interpolate.n = s.n := rfl
@[simp] theorem State.interpolate_os : s.interpolate.os = s.os := rfl
@[simp] theorem State.interpolate_nup : s.interpolate.nup = s.nup := rfl
@[simp] theorem State.interpolate_nused : s.interpolate.nused = s.nused := rfl
@[simp] theorem State.interpolate_winReq : s.interpolate.winReq = s.winReq := rfl
@[simp] theorem State.interpolate_nums : s.interpolate.nums = s.nums := rfl

@[simp] theorem State.setCfo_n (r : CfoResult Word) : (s.setCfo r).n = s.n := rfl
@[simp] theorem State.setCfo_os (r : CfoResult Word) : (s.setCfo r).os = s.os := rfl
@[simp] theorem State.setCfo_nup (r : CfoResult Word) : (s.setCfo r).nup = s.nup := rfl
@[simp] theorem State.setCfo_nused (r : CfoResult Word) : (s.setCfo r).nused = s.nused := rfl
@[simp] theorem State.setCfo_winReq (r : CfoResult Word) : (s.setCfo r).winReq = s.winReq := rfl
@[simp] theorem State.setCfo_nums (r : CfoResult Word) : (s.setCfo r).nums = s.nums := rfl

@[simp] theorem State.setAlt_n (r : Word × Nat) : (s.setAlt r).n = s.n := rfl
@[simp] theorem State.setAlt_os (r : Word × Nat) : (s.setAlt r).os = s.os := rfl
@[simp] theorem State.setAlt_nup (r : Word × Nat) : (s.setAlt r).nup = s.nup := rfl
@[simp] theorem State.setAlt_nused (r : Word × Nat) : (s.setAlt r).nused = s.nused := rfl
@[simp] theorem State.setAlt_winReq (r : Word × Nat) : (s.setAlt r).winReq = s.winReq := rfl
@[simp] theorem State.setAlt_nums (r : Word × Nat) : (s.setAlt r).nums = s.nums := rfl

@[simp] theorem State.setSto_n (r : Peak Word × Word × Word) : (s.setSto r).n = s.n := rfl
@[simp] theorem State.setSto_os (r : Peak Word × Word × Word) : (s.setSto r).os = s.os := rfl
@[simp] theorem State.setSto_nup (r : Peak Word × Word × Word) : (s.setSto r).nup = s.nup := rfl
@[simp] theorem State.setSto_nused (r : Peak Word × Word × Word) : (s.setSto r).nused = s.nused := rfl
@[simp] theorem State.setSto_winReq (r : Peak Word × Word × Word) : (s.setSto r).winReq = s.winReq := rfl
@[simp] theorem State.setSto_nums (r : Peak Word × Word × Word) : (s.setSto r).nums = s.nums := rfl

@[simp] theorem State.setTap_n : s.setTap.n = s.n := rfl
@[simp] theorem State.setTap_os : s.setTap.os = s.os := rfl
@[simp] theorem State.setTap_nup : s.setTap.nup = s.nup := rfl
@[simp] theorem State.setTap_nused : s.setTap.nused = s.nused := rfl
@[simp] theorem State.setTap_winReq : s.setTap.winReq = s.winReq := rfl
@[simp] theorem State.setTap_nums : s.setTap.nums = s.nums := rfl

@[simp] theorem State.resync_n (c : Cause) : (s.resync c).n = s.n := rfl
@[simp] theorem State.resync_os (c : Cause) : (s.resync c).os = s.os := rfl
@[simp] theorem State.resync_nup (c : Cause) : (s.resync c).nup = s.nup := rfl
@[simp] theorem State.resync_nused (c : Cause) : (s.resync c).nused = s.nused := rfl
@[simp] theorem State.resync_winReq (c : Cause) : (s.resync c).winReq = s.winReq := rfl
@[simp] theorem State.resync_nums (c : Cause) : (s.resync c).nums = s.nums := rfl

@[simp] theorem State.enterSync_n : s.enterSync.n = s.n := rfl
@[simp] theorem State.enterSync_os : s.enterSync.os = s.os := rfl
@[simp] theorem State.enterSync_nup : s.enterSync.nup = s.nup := rfl
@[simp] theorem State.enterSync_nused : s.enterSync.nused = s.nused := rfl
@[simp] theorem State.enterSync_winReq : s.enterSync.winReq = s.winReq := rfl
@[simp] theorem State.enterSync_nums : s.enterSync.nums = s.nums := rfl

/-! ### Sample memories -/

@[simp] theorem State.setMem_mem_same (sp : Space) (m : Mem) : (s.setMem sp m).mem sp = m := by cases sp <;> rfl

theorem State.setMem_mem_other (sp sp' : Space) (m : Mem) (h : sp' ≠ sp) : (s.setMem sp m).mem sp' = s.mem sp' := by
  cases sp <;> cases sp' <;> first | rfl | exact absurd rfl h

theorem State.setMem_mem (sp sp' : Space) (m : Mem) :
    (s.setMem sp m).mem sp' = if sp' = sp then m else s.mem sp' := by
  by_cases h : sp' = sp
  · subst h; simp
  · simp [State.setMem_mem_other _ _ _ _ h, h]

theorem State.storeElems_mem (sp sp' : Space) (i : Nat) (xs : List Sample) :
    (s.storeElems sp i xs).mem sp' = if sp' = sp then (s.mem sp).store (2 * i) (wordsOf xs) else s.mem sp' :=
  State.setMem_mem s sp sp' _

@[simp] theorem State.setErr_mem (c : ErrCode) (sp : Space) : (s.setErr c).mem sp = s.mem sp := by cases sp <;> rfl

@[simp] theorem State.setBus_mem (ops : List BusOp) (sp : Space) : (s.setBus ops).mem sp = s.mem sp := by
  cases sp <;> rfl

@[simp] theorem State.setBusData_mem (w : Word) (sp : Space) : (s.setBusData w).mem sp = s.mem sp := by cases sp <;> rfl

@[simp] theorem State.setErr_setErr (c d : ErrCode) : (s.setErr c).setErr d = s.setErr d := rfl

/-- Two states with the same memories read the same in every space. -/
theorem State.mem_congr {s t : State} (h : t.mems = s.mems) (sp : Space) : t.mem sp = s.mem sp := by
  cases sp <;> simp [State.mem, h]

end Sys2Proof.Machine
end

