-- ==== Sys2Proof/Laws/Memory.lean ====
section
/-! SUPPORT. The sample memories: what a read gives after a store, that a store keeps the canonical form, and the same for
whole elements and vectors. -/

namespace Sys2Proof.Machine

/-! ### One word -/

theorem lookup_filter_pos (m : Mem) (p : Nat → Bool) (a : Nat) (h : p a = true) :
    List.lookup a (m.filter fun c => p c.1) = List.lookup a m := by
  induction m with
  | nil => rfl
  | cons c m ih =>
    obtain ⟨k, v⟩ := c
    by_cases hk : a = k
    · subst hk; simp [h]
    · have hne : (a == k) = false := by simpa using hk
      rw [List.lookup_cons, hne, List.filter_cons]
      split
      · rw [List.lookup_cons, hne]; exact ih
      · exact ih

theorem lookup_filter_neg (m : Mem) (p : Nat → Bool) (a : Nat) (h : p a = false) :
    List.lookup a (m.filter fun c => p c.1) = none := by
  rw [List.lookup_eq_none_iff]
  intro c hc
  have hp : p c.1 = true := (List.mem_filter.1 hc).2
  rw [bne_iff_ne]
  rintro rfl
  simp [h] at hp

/-- The block of a store: its own words at its own offsets. -/
theorem lookup_block (ws : List Word) (off a : Nat) :
    List.lookup a ((ws.zipIdx off).map fun wi => (wi.2, wi.1)) = if off ≤ a then ws[a - off]? else none := by
  induction ws generalizing off with
  | nil => simp
  | cons w ws ih =>
    simp only [List.zipIdx_cons, List.map_cons, List.lookup_cons, ih]
    by_cases h : a = off
    · subst h; simp
    · have hne : (a == off) = false := by simpa using h
      rw [hne]
      by_cases hle : off + 1 ≤ a
      · have : a - off = a - (off + 1) + 1 := by omega
        simp [hle, show off ≤ a by omega, this]
      · simp [hle, show ¬ off ≤ a by omega]

/-- Read after write: the words stored where they were stored, and every other offset as before. -/
theorem Mem.load_store (m : Mem) (off : Nat) (ws : List Word) (a : Nat) :
    (m.store off ws).load a = if off ≤ a ∧ a < off + ws.length then ws[a - off]? else m.load a := by
  unfold Mem.store Mem.load
  rw [List.lookup_append, List.lookup_append, lookup_block]
  by_cases h1 : a < off
  · have hp : (fun x => decide (x < off)) a = true := by simpa using h1
    rw [lookup_filter_pos m (fun x => decide (x < off)) a hp,
      lookup_filter_neg m (fun x => decide (off + ws.length ≤ x)) a (by simp; omega)]
    simp [show ¬ off ≤ a by omega]
  · rw [lookup_filter_neg m (fun x => decide (x < off)) a (by simpa using h1)]
    by_cases h2 : a < off + ws.length
    · rw [lookup_filter_neg m (fun x => decide (off + ws.length ≤ x)) a (by simpa using h2)]
      simp [h2, show off ≤ a by omega]
    · rw [lookup_filter_pos m (fun x => decide (off + ws.length ≤ x)) a (by simp; omega)]
      simp [h2, show off ≤ a by omega, List.getElem?_eq_none (show ws.length ≤ a - off by omega)]

theorem Mem.load_store_inside (m : Mem) (off : Nat) (ws : List Word) (j : Nat) (h : j < ws.length) :
    (m.store off ws).load (off + j) = some ws[j] := by
  rw [Mem.load_store, if_pos ⟨by omega, by omega⟩]
  simp [h]

theorem Mem.load_store_outside (m : Mem) (off : Nat) (ws : List Word) (a : Nat)
    (h : a < off ∨ off + ws.length ≤ a) : (m.store off ws).load a = m.load a := by
  rw [Mem.load_store, if_neg (by omega)]

/-- A store keeps the canonical form. -/
theorem Mem.store_wf (m : Mem) (off : Nat) (ws : List Word) (h : m.wf) : (m.store off ws).wf := by
  have hb : ((ws.zipIdx off).map fun wi => (wi.2, wi.1)).Pairwise (fun c d => c.1 < d.1) := by
    induction ws generalizing off with
    | nil => simp
    | cons w ws ih =>
      simp only [List.zipIdx_cons, List.map_cons, List.pairwise_cons]
      refine ⟨?_, ih (off + 1)⟩
      intro c hc
      obtain ⟨⟨w', i⟩, hwi, rfl⟩ := List.mem_map.1 hc
      have := (List.mem_zipIdx hwi).1
      simp; omega
  have hmem : ∀ c ∈ (ws.zipIdx off).map (fun wi => (wi.2, wi.1)), off ≤ c.1 ∧ c.1 < off + ws.length := by
    intro c hc
    obtain ⟨⟨w', i⟩, hwi, rfl⟩ := List.mem_map.1 hc
    have := List.mem_zipIdx hwi
    simp at this ⊢; omega
  unfold Mem.wf Mem.store
  rw [List.pairwise_append, List.pairwise_append]
  refine ⟨⟨h.filter _, hb, ?_⟩, h.filter _, ?_⟩
  · intro c hc d hd
    have h1 := hmem d hd
    simp only [List.mem_filter, decide_eq_true_eq] at hc
    omega
  · intro c hc d hd
    simp only [List.mem_filter, decide_eq_true_eq] at hd
    rcases List.mem_append.1 hc with hc | hc
    · simp only [List.mem_filter, decide_eq_true_eq] at hc; omega
    · have h1 := hmem c hc; omega

/-! ### Elements and vectors -/

@[simp] theorem wordsOf_nil : wordsOf [] = [] := rfl

@[simp] theorem wordsOf_cons (z : Sample) (xs : List Sample) : wordsOf (z :: xs) = z.1 :: z.2 :: wordsOf xs := rfl

@[simp] theorem wordsOf_length (xs : List Sample) : (wordsOf xs).length = 2 * xs.length := by
  induction xs with
  | nil => rfl
  | cons z xs ih => simp [ih]; omega

theorem wordsOf_get (xs : List Sample) (j : Nat) :
    (wordsOf xs)[2 * j]? = xs[j]?.map Prod.fst ∧ (wordsOf xs)[2 * j + 1]? = xs[j]?.map Prod.snd := by
  induction xs generalizing j with
  | nil => simp
  | cons z xs ih =>
    cases j with
    | zero => simp
    | succ j =>
      have := ih j
      simp only [wordsOf_cons, show 2 * (j + 1) = 2 * j + 1 + 1 by omega, List.getElem?_cons_succ]
      exact this

/-- An element after samples have been stored. -/
theorem Mem.elem_store (m : Mem) (i : Nat) (xs : List Sample) (k : Nat) :
    (m.store (2 * i) (wordsOf xs)).elem k = if i ≤ k ∧ k < i + xs.length then xs[k - i]? else m.elem k := by
  unfold Mem.elem
  simp only [Mem.load_store, wordsOf_length]
  by_cases h : i ≤ k ∧ k < i + xs.length
  · have h' := wordsOf_get xs (k - i)
    have e1 : 2 * k - 2 * i = 2 * (k - i) := by omega
    have e2 : 2 * k + 1 - 2 * i = 2 * (k - i) + 1 := by omega
    rw [if_pos (by omega), if_pos (by omega), if_pos h, e1, e2, h'.1, h'.2]
    have hlt : k - i < xs.length := by omega
    simp [hlt]
  · rw [if_neg (by omega), if_neg (by omega), if_neg h]

theorem mem_indices (n : Nat) (i : Int) : i ∈ indices n ↔ ∃ k : Nat, k < n ∧ i = k := by
  simp only [indices, List.mem_map, List.mem_range]
  exact ⟨fun ⟨a, h, e⟩ => ⟨a, h, e.symm⟩, fun ⟨a, h, e⟩ => ⟨a, h, e.symm⟩⟩

@[simp] theorem indices_length (n : Nat) : (indices n).length = n := by simp [indices]

theorem Mem.written_iff (m : Mem) (idx : List Int) : m.written idx = true ↔ ∀ i ∈ idx, (m.elem i).isSome = true := by
  simp [Mem.written]

theorem Mem.written_indices_iff (m : Mem) (n : Nat) :
    m.written (indices n) = true ↔ ∀ k : Nat, k < n → (m.elem k).isSome = true := by
  rw [Mem.written_iff]
  constructor
  · intro h k hk; exact h k ((mem_indices n k).2 ⟨k, hk, rfl⟩)
  · intro h i hi
    obtain ⟨k, hk, rfl⟩ := (mem_indices n i).1 hi
    exact h k hk

/-- As many values as indices, when all of them are written. -/
theorem Mem.values_length (m : Mem) (idx : List Int) (h : m.written idx = true) : (m.values idx).length = idx.length := by
  induction idx with
  | nil => rfl
  | cons i idx ih =>
    rw [Mem.written_iff] at h
    have hi := h i (by simp)
    obtain ⟨z, hz⟩ := Option.isSome_iff_exists.1 hi
    have := ih ((Mem.written_iff _ _).2 fun j hj => h j (by simp [hj]))
    simp only [Mem.values, List.filterMap_cons, hz, List.length_cons] at this ⊢
    omega

/-- The value at a place of the index list is the element it names. -/
theorem Mem.values_get (m : Mem) (idx : List Int) (h : m.written idx = true) (j : Nat) (hj : j < idx.length) :
    (m.values idx)[j]? = m.elem idx[j] := by
  induction idx generalizing j with
  | nil => simp at hj
  | cons i idx ih =>
    rw [Mem.written_iff] at h
    obtain ⟨z, hz⟩ := Option.isSome_iff_exists.1 (h i (by simp))
    have hw := (Mem.written_iff m idx).2 fun j hj => h j (by simp [hj])
    cases j with
    | zero => simp [Mem.values, hz]
    | succ j =>
      have := ih hw j (by simpa using hj)
      simpa [Mem.values, hz] using this

theorem Mem.values_indices_get (m : Mem) (n : Nat) (h : m.written (indices n) = true) (j : Nat) (hj : j < n) :
    (m.values (indices n))[j]? = m.elem j := by
  rw [Mem.values_get m _ h j (by simpa using hj)]
  simp [indices]

/-- A vector stored from element 0 on reads back as it is. -/
theorem Mem.written_store_self (m : Mem) (xs : List Sample) (n : Nat) (h : n ≤ xs.length) :
    (m.store 0 (wordsOf xs)).written (indices n) = true := by
  rw [Mem.written_indices_iff]
  intro k hk
  have := Mem.elem_store m 0 xs k
  rw [Nat.mul_zero] at this
  rw [this, if_pos ⟨by omega, by omega⟩]
  simp; omega

theorem Mem.values_store_self (m : Mem) (xs : List Sample) :
    (m.store 0 (wordsOf xs)).values (indices xs.length) = xs := by
  have hw := Mem.written_store_self m xs xs.length (Nat.le_refl _)
  apply List.ext_getElem?
  intro j
  by_cases hj : j < xs.length
  · rw [Mem.values_indices_get _ _ hw j hj]
    have := Mem.elem_store m 0 xs j
    rw [Nat.mul_zero] at this
    rw [this, if_pos ⟨by omega, by omega⟩]
    simp
  · rw [List.getElem?_eq_none (by rw [Mem.values_length _ _ hw]; simpa using hj), List.getElem?_eq_none (by omega)]

/-- Two memories whose elements agree on a list of indices have the same values there. -/
theorem Mem.values_congr (m m' : Mem) (idx : List Int) (h : ∀ i ∈ idx, m.elem i = m'.elem i) :
    m.values idx = m'.values idx := by
  induction idx with
  | nil => rfl
  | cons i idx ih =>
    have h1 := h i (by simp)
    have h2 := ih fun j hj => h j (by simp [hj])
    simp only [Mem.values, List.filterMap_cons] at h2 ⊢
    rw [h1, h2]

/-- A store leaves an element outside its block as it was, and never unwrites one. -/
theorem Mem.elem_store_isSome (m : Mem) (i : Nat) (xs : List Sample) (k : Nat) (h : (m.elem k).isSome = true) :
    ((m.store (2 * i) (wordsOf xs)).elem k).isSome = true := by
  rw [Mem.elem_store]
  split
  · simp; omega
  · exact h

end Sys2Proof.Machine
end

