-- ==== Sys2Proof/Laws/Ops.lean ====
section
/-! SUPPORT. What each shared operation can do, said once: if it answers a next state (or `.ok`), then these are the cases.
The proofs cite these lemmas instead of unfolding the operations. -/

namespace Sys2Proof.Machine

/-- A sequence of two actions that succeeds: the first succeeds and the second succeeds on its result. -/
theorem bind_ok {ε α β : Type} (x : Except ε α) (f : α → Except ε β) (b : β) :
    (x >>= f) = .ok b ↔ ∃ a, x = .ok a ∧ f a = .ok b := by
  cases x with
  | error e => exact ⟨nofun, nofun⟩
  | ok a => exact ⟨fun h => ⟨a, rfl, h⟩, fun ⟨_, h, h'⟩ => Except.ok.inj h ▸ h'⟩

/-- A sequence of two actions that faults: the first faults, or it succeeds and the second faults. -/
theorem bind_error {ε α β : Type} (x : Except ε α) (f : α → Except ε β) (e : ε) :
    (x >>= f) = .error e ↔ x = .error e ∨ ∃ a, x = .ok a ∧ f a = .error e := by
  cases x with
  | error e' =>
    constructor
    · intro h; exact .inl (by rw [← Except.error.inj h])
    · rintro (h | ⟨_, h, _⟩)
      · rw [Except.error.inj h]; rfl
      · cases h
  | ok a =>
    constructor
    · intro h; exact .inr ⟨a, rfl, h⟩
    · rintro (h | ⟨_, h, h'⟩)
      · cases h
      · exact Except.ok.inj h ▸ h'

/-! ### The course of a command -/

@[simp] theorem cmdError_next (c : ErrCode) (s t : State) : cmdError c s = .next t ↔ t = s.setErr c := by
  simp [cmdError, eq_comm]

theorem finish_next (r : Except Fault State) (t : State) :
    finish r = .next t ↔ ∃ u, r = .ok u ∧ t = u.setErr .none := by
  cases r with
  | error e => simp [finish]
  | ok u => simp [finish, eq_comm]

theorem hostCommand_next (body : State → Except Fault State) (s t : State) :
    hostCommand body s = .next t ↔
      (s.started = true ∧ ∃ u, body s = .ok u ∧ t = u.setErr .none) ∨
      (s.started = false ∧ t = s.setErr .notStarted) := by
  unfold hostCommand
  cases h : s.started <;> simp [finish_next]

theorem unitCommand_next (body : State → Except Fault State) (s t : State) :
    unitCommand body s = .next t ↔
      (s.started = true ∧ s.test = true ∧ ∃ u, body s = .ok u ∧ t = u.setErr .none) ∨
      (s.started = true ∧ s.test = false ∧ t = s.setErr .mode) ∨
      (s.started = false ∧ t = s.setErr .notStarted) := by
  unfold unitCommand
  cases h : s.started <;> cases h' : s.test <;> simp [finish_next]

/-- A unit-level command on a started block in `TEST` mode whose body succeeds. -/
theorem unitCommand_ok {body : State → Except Fault State} {s u : State} (hs : s.started = true) (ht : s.test = true)
    (h : body s = .ok u) : unitCommand body s = .next (u.setErr .none) := by
  simp [unitCommand, hs, ht, h, finish]

/-- A host-level command on a started block whose body succeeds. -/
theorem hostCommand_ok {body : State → Except Fault State} {s u : State} (hs : s.started = true) (h : body s = .ok u) :
    hostCommand body s = .next (u.setErr .none) := by
  simp [hostCommand, hs, h, finish]

/-! ### Reading vectors -/

theorem readElems_ok (sp : Space) (idx : List Int) (s : State) (xs : List Sample) :
    readElems sp idx s = .ok xs ↔ (s.mem sp).written idx = true ∧ xs = (s.mem sp).values idx := by
  unfold readElems
  split
  · next h => simp [h, eq_comm]
  · next h => simp [h]

theorem readVector_ok (sp : Space) (s : State) (xs : List Sample) :
    readVector sp s = .ok xs ↔ (s.mem sp).written (indices s.n) = true ∧ xs = (s.mem sp).values (indices s.n) :=
  readElems_ok _ _ _ _

theorem readPreamble_ok (sp : Space) (s : State) (xs : List Sample) :
    readPreamble sp s = .ok xs ↔
      (s.mem sp).written (indices (s.nused * s.n)) = true ∧ xs = (s.mem sp).values (indices (s.nused * s.n)) :=
  readElems_ok _ _ _ _

theorem readCorrected_ok (s : State) (z : List Sample) :
    readCorrected s = .ok z ↔
      (s.mem .sym).written (indices s.n) = true ∧ (s.mem .corr).written (indices s.n) = true ∧
      z = s.nums.hadamard ((s.mem .sym).values (indices s.n)) ((s.mem .corr).values (indices s.n)) := by
  unfold readCorrected
  simp only [bind_ok, readVector_ok]
  constructor
  · rintro ⟨x, ⟨hx, rfl⟩, c, ⟨hc, rfl⟩, h⟩
    exact ⟨hx, hc, by cases h; rfl⟩
  · rintro ⟨hx, hc, rfl⟩
    exact ⟨_, ⟨hx, rfl⟩, _, ⟨hc, rfl⟩, rfl⟩

theorem correlate_ok (x : List Sample) (ref : RefSel) (s : State) (bs : Option Nat × State) :
    correlate x ref s = .ok bs ↔
      (s.mem (refSpace ref)).written (indices s.n) = true ∧
      bs = ((s.nums.demod x ((s.mem (refSpace ref)).values (indices s.n))).1,
        s.setCorrelator (s.nums.demod x ((s.mem (refSpace ref)).values (indices s.n)))) := by
  unfold correlate
  simp only [bind_ok, readVector_ok]
  constructor
  · rintro ⟨r, ⟨hr, rfl⟩, h⟩
    exact ⟨hr, by cases h; rfl⟩
  · rintro ⟨hr, rfl⟩
    exact ⟨_, ⟨hr, rfl⟩, rfl⟩

/-! ### The units as actions on the state -/

theorem runCfoest_ok (s t : State) :
    runCfoest s = .ok t ↔
      (s.mem .pre).written (indices (s.nused * s.n)) = true ∧ (s.mem .down).written (indices s.n) = true ∧
      t = s.setCfo (s.nums.cfoest s.n s.nused ((s.mem .pre).values (indices (s.nused * s.n)))
        ((s.mem .down).values (indices s.n))) := by
  unfold runCfoest
  simp only [bind_ok, readVector_ok, readPreamble_ok]
  constructor
  · rintro ⟨x, ⟨hx, rfl⟩, c, ⟨hc, rfl⟩, h⟩
    exact ⟨hx, hc, by cases h; rfl⟩
  · rintro ⟨hx, hc, rfl⟩
    exact ⟨_, ⟨hx, rfl⟩, _, ⟨hc, rfl⟩, rfl⟩

theorem runStoest_ok (s t : State) :
    runStoest s = .ok t ↔
      (s.mem .prec).written (indices (s.nused * s.n)) = true ∧ (s.mem .down).written (indices s.n) = true ∧
      t = s.setSto (s.nums.stoest s.n s.nused ((s.mem .prec).values (indices (s.nused * s.n)))
        ((s.mem .down).values (indices s.n))) := by
  unfold runStoest
  simp only [bind_ok, readVector_ok, readPreamble_ok]
  constructor
  · rintro ⟨x, ⟨hx, rfl⟩, c, ⟨hc, rfl⟩, h⟩
    exact ⟨hx, hc, by cases h; rfl⟩
  · rintro ⟨hx, hc, rfl⟩
    exact ⟨_, ⟨hx, rfl⟩, _, ⟨hc, rfl⟩, rfl⟩

theorem runDowns_ok (s t : State) :
    runDowns s = .ok t ↔
      (s.mem .inbuf).written (downsampleIndices s.os s.n s.delayD.toInt) = true ∧
      t = s.storeElems .sym 0 ((s.mem .inbuf).values (downsampleIndices s.os s.n s.delayD.toInt)) := by
  unfold runDowns
  simp only [bind_ok, readElems_ok]
  constructor
  · rintro ⟨x, ⟨hx, rfl⟩, h⟩
    exact ⟨hx, by cases h; rfl⟩
  · rintro ⟨hx, rfl⟩
    exact ⟨_, ⟨hx, rfl⟩, rfl⟩

/-! ### The state machine -/

/-- The prologue of `SYNC`: nothing once the estimators have run, else `CFOEST`, then `STOEST`, then `EST_DONE`. -/
theorem estimate_ok (s t : State) :
    estimate s = .ok t ↔
      (s.acq.estDone = true ∧ t = s) ∨
      (s.acq.estDone = false ∧ ∃ u v, runCfoest s = .ok u ∧ runStoest u = .ok v ∧ t = v.setEstDone) := by
  unfold estimate
  cases h : s.acq.estDone
  · simp only [Bool.false_eq_true, if_false, bind_ok, false_and, true_and, false_or]
    constructor
    · rintro ⟨u, hu, v, hv, h⟩; exact ⟨u, v, hu, hv, by cases h; rfl⟩
    · rintro ⟨u, v, hu, hv, rfl⟩; exact ⟨u, hu, v, hv, rfl⟩
  · simp [eq_comm]

theorem estimateAndCorrelate_ok (ref : RefSel) (s : State) (bs : Option Nat × State) :
    estimateAndCorrelate ref s = .ok bs ↔
      ∃ t z, estimate s = .ok t ∧ readCorrected t = .ok z ∧ correlate z ref t = .ok bs := by
  unfold estimateAndCorrelate
  simp only [bind_ok]
  exact ⟨fun ⟨t, ht, z, hz, h⟩ => ⟨t, z, ht, hz, h⟩, fun ⟨t, z, ht, hz, h⟩ => ⟨t, ht, z, hz, h⟩⟩

theorem stepDetect_ok (s t : State) :
    stepDetect s = .ok t ↔
      ∃ b u, (s.mem .sym).written (indices s.n) = true ∧
        correlate ((s.mem .sym).values (indices s.n)) .down s = .ok (b, u) ∧
        t = (let v := u.track b ((s.mem .sym).values (indices s.n))
             if v.acq.matchCnt.toNat + 1 = v.nup then v.enterSync else v.consume v.n) := by
  unfold stepDetect
  simp only [bind_ok, readVector_ok]
  constructor
  · rintro ⟨x, ⟨hx, rfl⟩, ⟨b, u⟩, hc, h⟩
    exact ⟨b, u, hx, hc, by cases h; rfl⟩
  · rintro ⟨b, u, hx, hc, rfl⟩
    exact ⟨_, ⟨hx, rfl⟩, (b, u), hc, rfl⟩

theorem stepNetId1_ok (s t : State) :
    stepNetId1 s = .ok t ↔
      ∃ b u, estimateAndCorrelate .down s = .ok (b, u) ∧
        t = (let v := u.consume s.n
             if ignored b s.n then v
             else if nearId b s.cfg.netId1 then
               { v with acq := { v.acq with netIdOff := intWord (deviation b s.cfg.netId1), syncPos := .netId2 } }
             else v.resync .netId1) := by
  unfold stepNetId1
  simp only [bind_ok]
  constructor
  · rintro ⟨⟨b, u⟩, hc, h⟩; exact ⟨b, u, hc, by cases h; rfl⟩
  · rintro ⟨b, u, hc, rfl⟩; exact ⟨(b, u), hc, rfl⟩

theorem stepNetId2_ok (s t : State) :
    stepNetId2 s = .ok t ↔
      ∃ b u, estimateAndCorrelate .down s = .ok (b, u) ∧
        t = (if nearId b s.cfg.netId2 then
               { u with acq := { u.acq with syncPos := .downchirp1 } }.consume
                 (if u.acq.netIdOff.toInt ≠ 0 ∧ deviation b s.cfg.netId2 = u.acq.netIdOff.toInt
                  then s.n - u.acq.netIdOff.toInt else s.n)
             else (u.consume s.n).resync .netId2) := by
  unfold stepNetId2
  simp only [bind_ok]
  constructor
  · rintro ⟨⟨b, u⟩, hc, h⟩; exact ⟨b, u, hc, by cases h; rfl⟩
  · rintro ⟨b, u, hc, rfl⟩; exact ⟨(b, u), hc, rfl⟩

theorem stepDownchirp1_ok (s t : State) :
    stepDownchirp1 s = .ok t ↔
      ∃ u, estimate s = .ok u ∧ t = { u with acq := { u.acq with syncPos := .downchirp2 } }.consume s.n := by
  unfold stepDownchirp1
  simp only [bind_ok]
  constructor
  · rintro ⟨u, hu, h⟩; exact ⟨u, hu, by cases h; rfl⟩
  · rintro ⟨u, hu, rfl⟩; exact ⟨u, hu, rfl⟩

theorem stepDownchirp2_ok (s t : State) :
    stepDownchirp2 s = .ok t ↔
      ∃ b u, estimateAndCorrelate .up s = .ok (b, u) ∧
        t = { u with acq := { u.acq with downVal := binWord b, syncPos := .quarterDown } }.consume s.n := by
  unfold stepDownchirp2
  simp only [bind_ok]
  constructor
  · rintro ⟨⟨b, u⟩, hc, h⟩; exact ⟨b, u, hc, by cases h; rfl⟩
  · rintro ⟨b, u, hc, rfl⟩; exact ⟨(b, u), hc, rfl⟩

theorem stepEmit_ok (s t : State) :
    stepEmit s = .ok t ↔
      ∃ z, readCorrected s = .ok z ∧
        t = (let u := (s.storeElems .outbuf 0 z).consume s.n
             { u with
               report := { u.report with produced := BitVec.ofNat 32 s.n }
               acq := { u.acq with symCnt := u.acq.symCnt + 1 } }) := by
  unfold stepEmit
  simp only [bind_ok]
  constructor
  · rintro ⟨z, hz, h⟩; exact ⟨z, hz, by cases h; rfl⟩
  · rintro ⟨z, hz, rfl⟩; exact ⟨z, hz, rfl⟩

theorem fsmStep_ok (s t : State) :
    fsmStep s = .ok t ↔ ∃ u, stepCase s.clearReport = .ok u ∧ t = u.countUp := by
  unfold fsmStep
  simp only [bind_ok]
  constructor
  · rintro ⟨u, hu, h⟩; exact ⟨u, hu, by cases h; rfl⟩
  · rintro ⟨u, hu, rfl⟩; exact ⟨u, hu, rfl⟩

/-- One invocation: the drain, then either no progress or tap, downsampler and step. -/
theorem invoke_ok (s t : State) :
    invoke s = .ok t ↔
      (s.drainEvents.canProgress = false ∧ t = s.drainEvents.noProgress) ∨
      (s.drainEvents.canProgress = true ∧ ∃ u, runDowns s.drainEvents.setTap = .ok u ∧ fsmStep u = .ok t) := by
  unfold invoke
  generalize s.drainEvents = d
  by_cases h : d.canProgress = true
  · simp only [h, if_true, bind_ok, true_and, Bool.true_eq_false, false_and, false_or]
  · simp only [h, Bool.false_eq_true, if_false, Except.ok.injEq, false_and, or_false, true_and, eq_self,
      eq_comm (a := t)]

/-! ### The bus -/

theorem step_nil (s : State) (h : s.bus = []) : step s = .next s := by
  unfold step nextAccess; rw [h]

/-- A step with an access on the bus performs that access. -/
theorem step_cons (s : State) (op : BusOp) (rest : List BusOp) (h : s.bus = op :: rest) :
    step s = busAccess op (s.setBus rest) := by
  unfold step nextAccess; rw [h]

theorem busAccess_read (a : Addr) (s t : State) :
    busAccess (.read a) s = .next t ↔ ∃ w, busRead a s = .ok w ∧ t = s.setBusData w := by
  show (match busRead a s with | .ok w => Host.Outcome.next (s.setBusData w) | .error f => .fault f) = _ ↔ _
  cases busRead a s with
  | error e => exact ⟨nofun, nofun⟩
  | ok w =>
    constructor
    · intro h; exact ⟨w, rfl, (Host.Outcome.next.inj h).symm⟩
    · rintro ⟨w', h, rfl⟩; rw [Except.ok.inj h]

/-- A step: nothing pending, or a read, or a write. -/
theorem step_next (s t : State) :
    step s = .next t ↔
      (s.bus = [] ∧ t = s) ∨
      (∃ a rest w, s.bus = .read a :: rest ∧ busRead a (s.setBus rest) = .ok w ∧ t = (s.setBus rest).setBusData w) ∨
      (∃ a w rest, s.bus = .write a w :: rest ∧ busWrite a w (s.setBus rest) = .next t) := by
  constructor
  · intro h
    cases hb : s.bus with
    | nil =>
      rw [step_nil s hb] at h
      exact .inl ⟨rfl, (Host.Outcome.next.inj h).symm⟩
    | cons op rest =>
      rw [step_cons s op rest hb] at h
      cases op with
      | read a =>
        obtain ⟨w, hw, ht⟩ := (busAccess_read _ _ _).1 h
        exact .inr (.inl ⟨a, rest, w, rfl, hw, ht⟩)
      | write a w => exact .inr (.inr ⟨a, w, rest, rfl, h⟩)
  · rintro (⟨hb, rfl⟩ | ⟨a, rest, w, hb, hw, rfl⟩ | ⟨a, w, rest, hb, h⟩)
    · exact step_nil _ hb
    · rw [step_cons s _ _ hb]; exact (busAccess_read _ _ _).2 ⟨w, hw, rfl⟩
    · rw [step_cons s _ _ hb]; exact h

end Sys2Proof.Machine
end

