-- ==== Sys2Proof/Laws/Numerics.lean ====
section
/-! SUPPORT. What the functions of the numerics record can do: the peak index is in range, and the lengths of the vectors. -/

namespace Sys2Proof.Machine

variable {R : Type}

/-- The peak index of a non-empty array is in range, whatever the numbers. -/
theorem Num.argmax_lt (num : Num R) (s : List R) (h : s ≠ []) : num.argmax s < s.length := by
  unfold Num.argmax
  split
  · next yk hf =>
    have hm := List.mem_of_find?_eq_some hf
    obtain ⟨y, k⟩ := yk
    exact (List.mem_zipIdx hm).2.1.trans_eq (by simp)
  · exact Nat.mod_lt _ (List.length_pos_iff.2 h)

@[simp] theorem Arith.dftFormula_length (a : Arith R) (x : List (Cx R)) : (a.dftFormula x).length = x.length := by
  simp [Arith.dftFormula]

/-- Both word instances transform a vector into one of the same length. -/
@[simp] theorem State.dft_length (s : State) (x : List Sample) : (s.nums.dft x).length = x.length := by
  unfold State.nums
  split
  · exact Arith.dftFormula_length _ x
  · simp only [Num.implementation]
    split <;> simp

@[simp] theorem State.spectrum_length (s : State) (x : List Sample) : (s.nums.spectrum x).length = x.length := by
  simp [Num.spectrum]

@[simp] theorem Num.hadamard_length (num : Num R) (x y : List (Cx R)) :
    (num.hadamard x y).length = min x.length y.length := by
  simp [Num.hadamard]

@[simp] theorem Num.padding_length (num : Num R) (n : Nat) : (num.padding n).length = n := by
  simp [Num.padding]

/-- A correlator result that is a bin is a bin of the transform. -/
theorem State.demod_lt (s : State) (x r : List Sample) (b : Nat) (hx : x ≠ []) (hr : r.length = x.length)
    (h : (s.nums.demod x r).1 = some b) : b < x.length := by
  have hl : (s.nums.spectrum (s.nums.hadamard x r)).length = x.length := by simp [hr]
  have hne : s.nums.spectrum (s.nums.hadamard x r) ≠ [] := by
    rw [← List.length_pos_iff, hl]; exact List.length_pos_iff.2 hx
  unfold Num.demod at h
  simp only at h
  split at h
  · cases h
  · rw [← Option.some.inj h, ← hl]; exact s.nums.argmax_lt _ hne

@[simp] theorem Num.upChirp_length (num : Num R) (sf os : Nat) : (num.upChirp sf os).length = 2 ^ sf * os := by
  simp [Num.upChirp]

@[simp] theorem Num.gen_fst_length (num : Num R) (sf os : Nat) : (num.gen sf os).1.length = 2 ^ sf * os := by
  simp [Num.gen]

@[simp] theorem Num.gen_snd_length (num : Num R) (sf os : Nat) : (num.gen sf os).2.length = 2 ^ sf * os := by
  simp [Num.gen]

/-- Minus 0 is `+0.0` (rule R61), where flipping the sign of the stored word gives `-0.0`. -/
@[simp] theorem F32.minus_zero : F32.arith.minus F32.zero = F32.zero := by decide

/-- Sums of zeros stay zero in the instance of free values (rule R163's corner case). -/
@[simp] theorem Num.implementation_cadd_zero :
    Num.implementation.cadd F32.arith.czero F32.arith.czero = F32.arith.czero := by decide

end Sys2Proof.Machine
end

