-- ==== Sys2Proof/Laws/PerInstr.lean ====
section
/-! SUPPORT. Statements about every command as syntax, one lemma per constructor of `Instr`: the fields of its word. -/

namespace Sys2Proof.Laws

/-- The word of a command carries its opcode in [7:0], its argument in [15:8] and zeros above, and passes the checks of rule
R93 (1) (rules R90 to R92). -/
def WordFields.Statement (i : Instr) : Prop :=
  opField (encode i) = encodeOp i ∧ argField (encode i) = encodeArg i ∧ legalWord (encode i) = true ∧
  (encode i).toNat = (encodeOp i).toNat + 2 ^ 8 * (encodeArg i).toNat

theorem WordFields.nop : WordFields.Statement .nop := by unfold WordFields.Statement; decide
theorem WordFields.reset : WordFields.Statement .reset := by unfold WordFields.Statement; decide
theorem WordFields.start (mode : Mode) : WordFields.Statement (.start mode) := by
  unfold WordFields.Statement; cases mode <;> decide
theorem WordFields.work : WordFields.Statement .work := by unfold WordFields.Statement; decide
theorem WordFields.frameInfo : WordFields.Statement .frameInfo := by unfold WordFields.Statement; decide
theorem WordFields.gen : WordFields.Statement .gen := by unfold WordFields.Statement; decide
theorem WordFields.demod (ref : RefSel) (src : SrcSel) : WordFields.Statement (.demod ref src) := by
  unfold WordFields.Statement; cases ref <;> cases src <;> decide
theorem WordFields.interp : WordFields.Statement .interp := by unfold WordFields.Statement; decide
theorem WordFields.cfoest : WordFields.Statement .cfoest := by unfold WordFields.Statement; decide
theorem WordFields.cfoalt : WordFields.Statement .cfoalt := by unfold WordFields.Statement; decide
theorem WordFields.stoest : WordFields.Statement .stoest := by unfold WordFields.Statement; decide
theorem WordFields.fdly : WordFields.Statement .fdly := by unfold WordFields.Statement; decide
theorem WordFields.downs : WordFields.Statement .downs := by unfold WordFields.Statement; decide
theorem WordFields.fsmstep : WordFields.Statement .fsmstep := by unfold WordFields.Statement; decide
theorem WordFields.drain : WordFields.Statement .drain := by unfold WordFields.Statement; decide

end Sys2Proof.Laws
end

