-- ==== Sys2Proof/Tests/Slice0.lean ====
section
/-! SUPPORT. Tests of one step each on small states, and for every statement that has hypotheses a witness that meets all of
them together. Expected values come from the spec (the rule is named) or from a calculation by hand that is said. -/

namespace Sys2Proof.Machine

-- The kernel evaluates these theorems one after another: each one waiting for its turn would hold a thread of its own.
set_option Elab.async false

/-! ### Helpers -/

/-- The answer is a next state. -/
def Tests.completes : Out → Bool
  | .next _ => true
  | .fault _ => false
  | .refused _ => false

/-- The next state of an answer, `State.reset` where there is none. -/
def Tests.after : Out → State
  | .next t => t
  | .fault _ => State.reset
  | .refused _ => State.reset

theorem Tests.next_after (o : Out) (h : Tests.completes o = true) : o = .next (Tests.after o) := by
  cases o with
  | next t => rfl
  | fault f => cases h
  | refused r => cases h

/-- A fully written memory. -/
def Tests.memOf (xs : List Sample) : Mem := Mem.store [] 0 (wordsOf xs)

/-- The binary32 words of 1, -1 and 0 (rule R61). -/
def Tests.one : Word := 0x3F800000
def Tests.minusOne : Word := 0xBF800000

/-- The samples 1, j, -1, -j: one turn over four samples, the tone of bin 1 for `N = 4`. -/
def Tests.tone : List Sample :=
  [(Tests.one, 0), (0, Tests.one), (Tests.minusOne, 0), (0, Tests.minusOne)]

/-- `n` samples of value 1. -/
def Tests.ones (n : Nat) : List Sample := List.replicate n (Tests.one, 0)

/-- `n` samples of value 0. -/
def Tests.zeros (n : Nat) : List Sample := List.replicate n (0, 0)

/-- A started block in `TEST` mode with `N = 4`, `OS = 2`, `NUP = 4`, `NUSED = 3`, identifiers 2 and 3, and every memory
written: `SYM` the tone of bin 1, `PRE` and `PREC` zeros, the others ones. -/
def Tests.bench : State :=
  { State.reset with
    started := true, test := true
    cfg := { sf := 2, os := 2, nup := 4, nused := 3, sync0 := 2, sync1 := 3, flags := 1, hdrSyms := 8 }
    mems := {
      inbuf := Tests.memOf (Tests.ones 12), outbuf := Tests.memOf (Tests.ones 4), sym := Tests.memOf Tests.tone
      pre := Tests.memOf (Tests.zeros 12), prec := Tests.memOf (Tests.zeros 12), up := Tests.memOf (Tests.ones 4)
      down := Tests.memOf (Tests.ones 4), corr := Tests.memOf (Tests.ones 4) } }

/-- The bench at a position of the sequencer, the estimators having run. -/
def Tests.benchAt (x : SyncState) (p : SyncPos) : State :=
  { Tests.bench with acq := { Tests.bench.acq with state := x, syncPos := p, estDone := true } }

/-- A block with the bench's contents in `RUN` mode. -/
def Tests.benchRun : State := { Tests.bench with test := false }

/-- The reset configuration started in `RUN` mode. -/
def Tests.running : State := State.reset.construct .run

/-- An event with an invalid header, and a valid one for ten symbols. -/
def Tests.bad : Event := { invalid := true, hasCrc := false, payLen := 0, symbNumb := 0 }
def Tests.good : Event := { invalid := false, hasCrc := true, payLen := 5, symbNumb := 10 }

/-! ### Words -/

/-- Each check of rule R93 (1) refuses an ill-formed word: a bit in [31:16], a reserved opcode, an argument bit. -/
theorem test_highHalf_refused : highHalfZero 0x00010000 = false ∧ legalWord 0x00010000 = false ∧
    decode 0x00010000 = .error .highHalf := by decide

theorem test_reservedOpcode_refused : opcodeKnown 0x00000005 = false ∧ legalWord 0x00000005 = false ∧
    decode 0x00000005 = .error .reservedOpcode ∧ opcodeKnown 0x0000000F = false ∧ opcodeKnown 0x0000001A = false ∧
    opcodeKnown 0x000000FF = false := by decide

theorem test_badArgument_refused : argBitsZero 0x00000100 = false ∧ legalWord 0x00000202 = false ∧
    decode 0x00000202 = .error .badArgument ∧ decode 0x00000411 = .error .badArgument ∧
    decode 0x00000118 = .error .badArgument := by decide

theorem test_instr_wf : Instr.wf (.demod .up .symCorr) = true ∧ Instr.wf .nop = true := by decide

/-- No two rows of the opcode map share an opcode. -/
theorem test_opcodes_distinct : opcodeRows.Pairwise (fun r q => r.op ≠ q.op) := by decide

/-- Words written out from rules R90 to R92: `DEMOD` with `REF = 1`, `SRC = 0` is op 0x11, argA 0b01. -/
theorem test_decode_demod_up : decode 0b00000000000000000000000100010001#32 = .ok (.demod .up .sym) := by decide
theorem test_decode_demod_corr : decode 0b00000000000000000000001000010001#32 = .ok (.demod .down .symCorr) := by decide
theorem test_decode_start_test : decode 0b00000000000000000000000100000010#32 = .ok (.start .test) := by decide
theorem test_decode_host : decode 0b00000000#32 = .ok .nop ∧ decode 0b00000001#32 = .ok .reset ∧
    decode 0b00000010#32 = .ok (.start .run) ∧ decode 0b00000011#32 = .ok .work ∧
    decode 0b00000100#32 = .ok .frameInfo ∧ decode 0b00011001#32 = .ok .drain := by decide
theorem test_decode_units : decode 0b00010000#32 = .ok .gen ∧ decode 0b00010001#32 = .ok (.demod .down .sym) ∧
    decode 0b00010010#32 = .ok .interp ∧ decode 0b00010011#32 = .ok .cfoest ∧ decode 0b00010100#32 = .ok .cfoalt ∧
    decode 0b00010101#32 = .ok .stoest ∧ decode 0b00010110#32 = .ok .fdly ∧ decode 0b00010111#32 = .ok .downs ∧
    decode 0b00011000#32 = .ok .fsmstep := by decide

/-- The interface of the host: a table word decodes, and the next step after reset runs it. -/
theorem test_tableWord : decodeTableWord 32 0x311 = some (.demod .up .symCorr) ∧ decodeTableWord 8 0x19 = some .drain ∧
    decodeTableWord 32 0x10005 = none := by decide

theorem test_fetched_start_runs : Tests.completes (step (State.reset.withFetchWord 32 0x102)) = true ∧
    (Tests.after (step (State.reset.withFetchWord 32 0x102))).test = true ∧
    (Tests.after (step (State.reset.withFetchWord 32 0x102))).bus = [] := by decide +kernel

/-! ### Numerics -/

/-- 1 + 2 = 3, and 1/3 rounds to 0x3EAAAAAB (IEEE 754). -/
theorem test_float_add_div : F32.add Tests.one 0x40000000 = 0x40400000 ∧ F32.div Tests.one 0x40400000 = 0x3EAAAAAB := by
  decide +kernel

/-- A quarter turn is j exactly; an eighth has both parts sqrt(1/2) = 0x3F3504F3. -/
theorem test_cis : F32.cis 0x3E800000 = (0, Tests.one) ∧ F32.cis 0x3E000000 = (0x3F3504F3, 0x3F3504F3) := by
  decide +kernel

/-- The angle of 1 + j is an eighth of a turn. -/
theorem test_argTurns : F32.argTurns (Tests.one, Tests.one) = 0x3E000000 := by decide +kernel

/-- Rule R147: `fold(0.5) = 0.5`, `fold(-0.5) = 0.5`, `fold(0.75) = -0.25`. -/
theorem test_fold : F32.arith.fold 0x3F000000 = 0x3F000000 ∧ F32.arith.fold 0xBF000000 = 0x3F000000 ∧
    F32.arith.fold 0x3F400000 = 0xBE800000 := by decide +kernel

/-- Rule R12: `round_haz(4.5) = 5`, `round_haz(-1.5) = -2`. -/
theorem test_roundHaz : F32.roundHaz 0x40900000 = some 5 ∧ F32.roundHaz 0xBFC00000 = some (-2) ∧
    roundHazFrac 18 4 = 5 := by decide +kernel

/-! ### One step of each command -/

/-- Rule R221: `NOP` clears the error and nothing else. -/
theorem test_nop : exec .nop { Tests.bench with err := .ro } = .next Tests.bench := by rfl

/-- Rule R222's example: `reset` gives `STATUS = 0`, `CFG_SF = 7`. -/
theorem test_reset : readReg (Tests.after (exec .reset Tests.bench)) .status = 0 ∧
    readReg (Tests.after (exec .reset Tests.bench)) .cfgSf = 7 := by decide +kernel

/-- Rule R223's example: the reset configuration, `start`: `STATUS = 1`, `NETID1 = 8`, `NETID2 = 16`. -/
theorem test_start : readReg Tests.running .status = 1 ∧ readReg Tests.running .netId1 = 8 ∧
    readReg Tests.running .netId2 = 16 := by decide +kernel

/-- Rule R123's example, `SF = 7`: `UP[0] = 1`, `UP[64] = 1`, `UP[1] = UP[127] = -0.9996988187 - 0.0245412285j`, and
`DOWN[1]` its conjugate (binary32 words 0xBF7FEC43 and 0xBCC90AB0). -/
theorem test_start_chirps : Tests.running.load .up 0 = some Tests.one ∧ Tests.running.load .up 128 = some Tests.one ∧
    Tests.running.load .up 2 = some 0xBF7FEC43 ∧ Tests.running.load .up 3 = some 0xBCC90AB0 ∧
    Tests.running.load .up 254 = some 0xBF7FEC43 ∧ Tests.running.load .down 3 = some 0x3CC90AB0 := by decide +kernel

/-- Rule R224's example: not enough input gives (0, 0), and counters and context as they were. -/
theorem test_work_waits :
    (Tests.after (exec .work { Tests.bench with mail := { Tests.bench.mail with inAvail := 11 } })).report.consumed = 0 ∧
    (Tests.after (exec .work { Tests.bench with mail := { Tests.bench.mail with inAvail := 11 } })).acq = Tests.bench.acq := by
  decide +kernel

/-- A window of ones (`WIN_REQ = 12`) decodes to bin 0 in `DETECT` and starts a run of length 1, consuming `OS*N = 8` (rule
R192). -/
theorem test_work_detects :
    let t := Tests.after (exec .work { Tests.bench with mail := { Tests.bench.mail with inAvail := 12 } })
    t.acq.binPrev = 0 ∧ t.acq.matchCnt = 1 ∧ t.report.consumed = 8 ∧ t.count.inCount = 8 := by decide +kernel

/-- Rule R226's example: `frame_info valid 10, 5, 1` with an empty queue. -/
theorem test_frameInfo : exec .frameInfo { Tests.bench with
      mail := { Tests.bench.mail with fiFlags := 2, fiPaylen := 5, fiSymbnumb := 10 } } =
    .next { Tests.bench with
      mail := { Tests.bench.mail with fiFlags := 2, fiPaylen := 5, fiSymbnumb := 10 }, evq := [Tests.good] } := by rfl

/-- Rule R225's example: the event in a frame; and an invalid header resynchronises. -/
theorem test_drain :
    let t := Tests.after (exec .drain { Tests.benchAt .fracCfoCorrec .quarterDown with evq := [Tests.good] })
    t.acq.symbNumb = 10 ∧ t.fmPaylen = 5 ∧ t.fmHascrc = true ∧ t.evq = [] := by decide +kernel

theorem test_drain_invalid :
    let t := Tests.after (exec .drain { Tests.benchAt .fracCfoCorrec .quarterDown with evq := [Tests.bad, Tests.good] })
    t.acq.state = .detect ∧ t.resyncCause = .badHdr ∧ t.acq.symbNumb = 8 ∧ t.fmPaylen = 0 := by decide +kernel

/-- `GEN` for `N = 4` (rule R121): `theta = 0, -3/8, -1/2, -3/8`, so `UP[2] = cis(-1/2) = -1`, and `DOWN[1]` is `UP[1]` with
the imaginary sign flipped: `sqrt(1/2)` = 0x3F3504F3. -/
theorem test_gen :
    let t := Tests.after (exec .gen Tests.bench)
    t.load .up 4 = some Tests.minusOne ∧ t.load .up 2 = some 0xBF3504F3 ∧ t.load .up 3 = some 0xBF3504F3 ∧
    t.load .down 3 = some 0x3F3504F3 := by decide +kernel

/-- The tone of bin 1 against ones: by hand, `Y[1] = 4`, `E = 16/4 = 4`. -/
theorem test_demod : Tests.after (exec (.demod .down .sym) Tests.bench) =
    { Tests.bench with unit := { Tests.bench.unit with rBin := 1, rEnergy := 0x40800000 } } := by decide +kernel

/-- Rule R136's corner case: an all-zero `SYM` gives `R_BIN = -1`, `R_ENERGY = 0`. -/
theorem test_demod_silence :
    let t := Tests.after (exec (.demod .up .symCorr)
      { Tests.bench with mems := { Tests.bench.mems with sym := Tests.memOf (Tests.zeros 4) } })
    t.unit.rBin = 0xFFFFFFFF ∧ t.unit.rEnergy = 0 := by decide +kernel

/-- Rule R148's example: 0.2, 1.0, 0.6 give 0.2475383543; the word is within `2^-24` of it. -/
theorem test_interp :
    let t := Tests.after (exec .interp { Tests.bench with
      unit := { Tests.bench.unit with opYm1 := 0x3E4CCCCD, opY0 := Tests.one, opYp1 := 0x3F19999A } })
    ((F32.units t.unit.rKa) * 10 ^ 10 - 2475383543 * 2 ^ 149).natAbs < 2 ^ 125 * 10 ^ 10 := by decide +kernel

/-- Rule R161's corner case: an all-zero `PRE` gives `k0 = 0`, `ka = 0`, `LAMBDA_CFO = 0`, `CORR` all ones. -/
theorem test_cfoest :
    let t := Tests.after (exec .cfoest Tests.bench)
    t.unit.rK0 = 0 ∧ t.unit.rKa = 0 ∧ t.acq.lambdaCfo = 0 ∧ t.load .corr 0 = some Tests.one ∧
    t.load .corr 6 = some Tests.one := by decide +kernel

/-- Two symbols a quarter turn apart: by hand, `acc = 4 * conj(4j) = -16j`, so the estimate is 0.25 (rule R162). -/
theorem test_cfoalt :
    let s := { Tests.bench with
      cfg := { Tests.bench.cfg with nused := 2 }
      mems := { Tests.bench.mems with pre := Tests.memOf (Tests.ones 4 ++ List.replicate 4 (0, Tests.one)) } }
    (Tests.after (exec .cfoalt s)).unit.rAlt = 0x3E800000 ∧ (Tests.after (exec .cfoalt s)).unit.rK0 = 0 := by decide +kernel

/-- Rule R163's corner case, in both instances of the numerics: an all-zero `PRE` gives `R_ALT = 0`, `R_K0 = 0`. And two equal
symbols give the angle 0, whose negative is `+0.0` (rule R61). -/
theorem test_cfoalt_zero :
    let s := fun (x : List Sample) (m : NumSel) => { Tests.bench with
      cfg := { Tests.bench.cfg with nused := 2 }, mems := { Tests.bench.mems with pre := Tests.memOf x }, num := m }
    let t := fun x m => (Tests.after (exec .cfoalt (s x m))).unit
    (t (Tests.zeros 8) .binary32).rAlt = 0 ∧ (t (Tests.zeros 8) .binary32).rK0 = 0 ∧
    (t (Tests.zeros 8) .implementation).rAlt = 0 ∧ (t (Tests.zeros 8) .implementation).rK0 = 0 ∧
    (t (Tests.ones 8) .binary32).rAlt = 0 := by decide +kernel

/-- Rule R172's corner case: an all-zero `PREC` gives `k0 = 0`, `ka = 0`, `LAMBDA_STO = 0`. -/
theorem test_stoest :
    let t := Tests.after (exec .stoest Tests.bench)
    t.unit.rK0 = 0 ∧ t.unit.rKa = 0 ∧ t.acq.lambdaSto = 0 := by decide +kernel

/-- Rule R182's corner cases: `OS = 4` and 0.375 give 2, -0.375 gives -2; `OS = 1` and 0.5 give 0. -/
theorem test_fdly :
    let at_ := fun (os : BitVec 5) (lam : Word) => (Tests.after (exec .fdly { Tests.bench with
      cfg := { Tests.bench.cfg with os := os }, acq := { Tests.bench.acq with lambdaSto := lam } })).delayD
    at_ 4 0x3EC00000 = 2 ∧ at_ 4 0xBEC00000 = 0xFFFFFFFE ∧ at_ 1 0x3F000000 = 0 := by decide +kernel

/-- `OS = 2`, `DELAY_D = 1`: `SYM[0] = INBUF[0]`, `SYM[1] = INBUF[2]` (rule R183). -/
theorem test_downs :
    let s := { Tests.bench with
      delayD := 1
      mems := { Tests.bench.mems with inbuf := Tests.memOf ((List.range 12).map fun i => (BitVec.ofNat 32 i, 0)) } }
    let t := Tests.after (exec .downs s)
    t.load .sym 0 = some 0 ∧ t.load .sym 2 = some 2 ∧ t.load .sym 6 = some 6 := by decide +kernel

/-- Rule R199's example: `DOWN_VAL = 10`, `N = 128`, `OS = 1` give `CFO_INT = 5`, a tag, `CONSUMED = 37`. -/
theorem test_fsmstep_quarterDown :
    let s := { Tests.benchAt .sync .quarterDown with
      cfg := Cfg.reset, acq := { (Tests.benchAt .sync .quarterDown).acq with downVal := 10 } }
    let t := Tests.after (exec .fsmstep s)
    t.acq.cfoInt = 5 ∧ t.report.tagValid = true ∧ t.report.tagCfoint = 5 ∧ t.report.consumed = 37 ∧
    t.acq.state = .fracCfoCorrec := by decide +kernel

/-- Rule R193's tie: `NUP = 5`, bins 4, 5, 5, 4 sum to 18, `K_HAT = 5`; here the fourth bin is 1 and the sum before it 17 (`N =
4`, hand-made): the mean 4.5 rounds to 5. -/
theorem test_fsmstep_transition :
    let s := { Tests.bench with
      cfg := { Tests.bench.cfg with nup := 5 }
      acq := { Tests.bench.acq with kHat := 17, matchCnt := 3, binPrev := 1 } }
    let t := Tests.after (exec .fsmstep s)
    t.acq.kHat = 5 ∧ t.acq.state = .sync ∧ t.acq.matchCnt = 4 := by decide +kernel

/-- Rule R63's order of checks: a read-only register, a locked one, a bit above the field. -/
theorem test_write_checks :
    (Tests.after (busWrite (regAddr 0x20) 0xFFFFFFFF Tests.bench)).err = .ro ∧
    (Tests.after (busWrite (regAddr 0x00) 0xFFFFFFFF Tests.bench)).err = .locked ∧
    (Tests.after (busWrite (regAddr 0x00) 16 State.reset)).err = .value := by decide +kernel

/-! ### Witnesses: for each statement a state and operands that meet its hypotheses -/

open Tests

theorem witness_StepRunsTheDecodedCommand :
    ({ bench with bus := [.write cmdAddr 0x19] } : State).bus = .write cmdAddr 0x19 :: [] ∧ decode 0x19 = .ok .drain := by
  decide

/-- One word for each check of rule R93 (1). -/
theorem witness_IllegalWordsSetOnlyTheErrorCode :
    (∀ w : Word, ({ bench with bus := [.write cmdAddr w] } : State).bus = .write cmdAddr w :: []) ∧
    legalWord 0x80000000 = false ∧ legalWord 0x00010000 = false ∧ legalWord 0x00000005 = false ∧
    legalWord 0x000000FF = false ∧ legalWord 0x00008000 = false ∧ legalWord 0x00000411 = false :=
  ⟨fun _ => rfl, by decide⟩

/-- The two ends of every range. -/
theorem witness_ReservedAddressesReadZeroAndRefuseWrites :
    (∀ (a : Addr) (w : Word), ({ bench with bus := [.read a] } : State).bus = .read a :: [] ∧
      ({ bench with bus := [.write a w] } : State).bus = .write a w :: []) ∧
    reservedAddr 0x08 ∧ reservedAddr 0x0F ∧ reservedAddr 0x1D ∧ reservedAddr 0x1F ∧ reservedAddr 0x34 ∧
    reservedAddr 0x37 ∧ reservedAddr 0x40 ∧ reservedAddr 0xFFFFF ∧ reservedAddr 0x900000 ∧ reservedAddr 0xFFFFFF :=
  ⟨fun _ _ => ⟨rfl, rfl⟩, by
    refine ⟨?_, ?_, ?_, ?_, ?_, ?_, ?_, ?_, ?_, ?_⟩ <;> (unfold reservedAddr; decide)⟩

/-- The first and the last row. -/
theorem witness_RegistersReadByNumber :
    (0x00, 2) ∈ registerView bench ∧ (0x3F, 0) ∈ registerView bench ∧
    ({ bench with bus := [.read (regAddr 0x3F)] } : State).bus = .read (regAddr 0x3F) :: [] := by decide +kernel

/-- A full queue. -/
theorem witness_StatusFieldsAreInTheirPlaces :
    let s : State := { bench with evq := [good, good, good, bad], bus := [.read (regAddr 0x11)] }
    s.bus = .read (regAddr 0x11) :: [] ∧ s.evq.length ≤ Config.evqDepth := by decide

/-- Each way a write is refused: a read-only register; a locked one; an operand register in `RUN` mode; the least word that does
not fit. -/
theorem witness_RefusedRegisterWritesSetOnlyTheErrorCode :
    ((0x11, .ro, 32) ∈ registerClasses ∧ ¬Access.ro.admits bench) ∧
    ((0x07, .rwc, 16) ∈ registerClasses ∧ ¬Access.rwc.admits bench) ∧
    ((0x3C, .rwt, 32) ∈ registerClasses ∧ ¬Access.rwt.admits benchRun) ∧
    ((0x00, .rwc, 4) ∈ registerClasses ∧ Access.rwc.admits State.reset ∧ 2 ^ 4 ≤ (16#32).toNat) ∧
    ({ bench with bus := [.write (regAddr 0x11) 0] } : State).bus = .write (regAddr 0x11) 0 :: [] := by
  unfold Access.admits; decide

/-- The greatest word that fits, for each class that can be written. -/
theorem witness_AcceptedRegisterWritesStoreTheWord :
    ((0x00, .rwc, 4) ∈ registerClasses ∧ Access.rwc.admits State.reset ∧ (15#32).toNat < 2 ^ 4) ∧
    ((0x1B, .rw, 8) ∈ registerClasses ∧ Access.rw.admits benchRun ∧ (255#32).toNat < 2 ^ 8) ∧
    ((0x3E, .rwt, 32) ∈ registerClasses ∧ Access.rwt.admits bench ∧ (0xFFFFFFFF#32).toNat < 2 ^ 32) ∧
    ({ State.reset with bus := [.write (regAddr 0x00) 15] } : State).bus = .write (regAddr 0x00) 15 :: [] := by
  unfold Access.admits; decide

theorem witness_ValidConfigurationsAndTheirIdentifiers :
    Cfg.reset.valid = true ∧ Cfg.reset.flags.getLsbD 0 = false ∧
    ({ Cfg.reset with flags := 1, sync0 := 127, sync1 := 0 } : Cfg).valid = true ∧
    ({ Cfg.reset with flags := 1 } : Cfg).flags.getLsbD 0 = true := by decide

/-- Not started; the first offset beyond the capacity; a written and an unwritten word within it. -/
theorem witness_SampleReadsReturnTheStoredWord :
    (State.reset.started = false) ∧ (2 * bench.capacity .sym ≤ 8 ∧ (8 : Nat) < 2 ^ 20) ∧
    (bench.started = true ∧ 7 < 2 * bench.capacity .sym ∧ bench.load .sym 7 = some minusOne) ∧
    (running.started = true ∧ 7 < 2 * running.capacity .sym ∧ running.load .sym 7 = none) ∧
    ({ bench with bus := [.read (sampleAddr .sym 7)] } : State).bus = .read (sampleAddr .sym 7) :: [] := by decide +kernel

/-- Every clause: not started; a read-only memory; `SYM` in `RUN` mode; the first offset beyond the capacity; the last within. -/
theorem witness_SampleWritesAreCheckedThenStored :
    State.reset.started = false ∧ bench.started = true ∧ benchRun.started = true ∧ benchRun.test = false ∧
    bench.test = true ∧ 2 * benchRun.capacity .inbuf ≤ 24 ∧ 23 < 2 * benchRun.capacity .inbuf ∧
    7 < 2 * bench.capacity .sym ∧
    ({ bench with bus := [.write (sampleAddr .inbuf 23) 1] } : State).bus = .write (sampleAddr .inbuf 23) 1 :: [] := by
  decide +kernel

/-- Each error code of a command, and a command that raises none. -/
theorem witness_CommandErrorsFollowTheOrderOfChecks :
    errorOf .work State.reset = .notStarted ∧ errorOf (.start .run) bench = .locked ∧
    errorOf (.start .run) { State.reset with cfg := { Cfg.reset with sf := 6 } } = .config ∧
    errorOf .gen benchRun = .mode ∧ errorOf .frameInfo { bench with evq := [good, good, good, good] } = .evqFull ∧
    errorOf .nop bench = .none ∧ completes (exec .nop bench) = true := by
  refine ⟨?_, ?_, ?_, ?_, ?_, ?_, rfl⟩ <;> (unfold errorOf; decide)

theorem witness_ErrorsChangeNothingElse :
    let s : State := { State.reset with bus := [.write cmdAddr 3] }
    step s = .next { State.reset with err := .notStarted } ∧ ErrCode.notStarted ≠ s.err ∧ ErrCode.notStarted ≠ .none :=
  ⟨rfl, nofun, nofun⟩

/-- An access that leaves the block started, and the one that does not. -/
theorem witness_ModeAndConfigurationChangeOnlyByReset :
    let s : State := { bench with bus := [.write cmdAddr 0] }
    let s' : State := { bench with bus := [.write cmdAddr 1] }
    step s = .next bench ∧ s.started = true ∧ step s' = .next State.reset ∧ s'.started = true := ⟨rfl, rfl, rfl, rfl⟩

theorem witness_NopOnlyClearsTheErrorCode : (0x00000100#32).extractLsb' 0 8 = 0 ∧ 0x00000100#32 ≠ 0 := by decide

theorem witness_StartConstructsTheBlock : State.reset.started = false ∧ State.reset.cfg.valid = true := by decide

theorem witness_FrameInfoQueuesTheMailboxEvent :
    let s : State := { bench with evq := [good, good, bad] }
    s.started = true ∧ s.evq.length < Config.evqDepth := by decide

/-- Outside a frame; an empty queue; valid events only; an invalid one between valid ones. -/
theorem witness_DrainAppliesEventsOfTheFrameInProgress :
    let f := benchAt .fracCfoCorrec .quarterDown
    Testing bench ∧ bench.acq.state ≠ .fracCfoCorrec ∧ (Testing f ∧ f.acq.state = .fracCfoCorrec ∧ f.evq = []) ∧
    (({ f with evq := [good, good] } : State).evq = [good] ++ [good] ∧
      ∀ x ∈ [good, good], x.invalid = false) ∧
    (({ f with evq := [good, bad, good] } : State).evq = [good] ++ bad :: [good] ∧ (∀ x ∈ [good], x.invalid = false) ∧
      bad.invalid = true) := by
  unfold Testing; decide

/-- One sample short; and a frame without room for one more block. -/
theorem witness_WorkWithoutProgressReportsZero :
    let s : State := { bench with mail := { bench.mail with inAvail := 11 } }
    let s' : State := { benchAt .fracCfoCorrec .quarterDown with mail := { bench.mail with inAvail := 12, outCap := 3 } }
    (s.started = true ∧ s.drainEvents.mail.inAvail.toNat < s.os * (s.n + 2)) ∧
    (s'.started = true ∧ s'.drainEvents.acq.state = .fracCfoCorrec ∧
      s'.drainEvents.acq.symCnt.toNat < s'.drainEvents.acq.symbNumb.toNat ∧ s'.drainEvents.mail.outCap.toNat < s'.n) := by
  decide +kernel

/-- The least window, in `RUN` mode. -/
theorem witness_WorkIsTheSequenceOfUnitCommands :
    let s : State := { benchRun with mail := { bench.mail with inAvail := 12 } }
    let a := after (exec .drain { s with test := true })
    let b := after (exec .fdly a)
    let c := after (exec .downs b)
    s.started = true ∧ completes (exec .drain { s with test := true }) = true ∧ s.os * (s.n + 2) ≤ a.mail.inAvail.toNat ∧
    a.acq.state ≠ .fracCfoCorrec ∧ completes (exec .fdly a) = true ∧ completes (exec .downs b) = true ∧
    completes (exec .fsmstep c) = true := by decide +kernel

theorem witness_DemodLeavesThePeakBinAndTheEnergy :
    Testing bench ∧ Written bench .sym bench.n ∧ Written bench .corr bench.n ∧ Written bench .down bench.n ∧
    Written bench .up bench.n := by
  unfold Testing Written; decide +kernel

theorem witness_units : Testing bench ∧ Written bench .pre (bench.nused * bench.n) ∧
    Written bench .prec (bench.nused * bench.n) ∧ Written bench .down bench.n ∧ 0 < bench.nused := by
  unfold Testing Written; decide +kernel

/-- The product rounds to a whole number below `OS - 1`, and to one above it. -/
theorem witness_FdlyWritesTheDelayTap :
    Testing bench ∧ bench.nums.roundHaz (bench.nums.mul bench.acq.lambdaSto (bench.nums.ofFrac bench.os 1)) = some 0 ∧
    F32.roundHaz (F32.mul 0x3F000000 (F32.ofFrac 1 1)) = some 1 := by
  unfold Testing; decide +kernel

theorem witness_DownsTakesOneSampleInEveryOs :
    Testing bench ∧ ∀ i ∈ List.range 4,
      ((bench.mem .inbuf).elem ((bench.os : Int) - 1 + bench.os * (i : Nat) - bench.delayD.toInt)).isSome = true := by
  unfold Testing; decide +kernel

/-- The bench with one memory unwritten, at a position of the sequencer. -/
def Tests.lacking (sp : Space) (x : SyncState) (p : SyncPos) : State := (benchAt x p).setMem sp []

/-- Each operand memory unwritten while those read before it are written; and a window whose last element is missing. -/
theorem witness_UnwrittenOperandsFault :
    let s := fun (sp : Space) => lacking sp .detect .netId1
    (∀ sp : Space, Testing (s sp)) ∧ ¬Written (s .sym) .sym 4 ∧
    (Written (s .corr) .sym 4 ∧ ¬Written (s .corr) .corr 4) ∧
    (Written (s .down) .sym 4 ∧ Written (s .down) .corr 4 ∧ ¬Written (s .down) .down 4) ∧
    (Written (s .up) .sym 4 ∧ Written (s .up) .corr 4 ∧ ¬Written (s .up) .up 4) ∧
    ¬Written (s .pre) .pre 12 ∧ Written (s .down) .pre 12 ∧ ¬Written (s .prec) .prec 12 ∧ Written (s .down) .prec 12 ∧
    (bench.mem .inbuf).elem ((bench.os : Int) - 1 + bench.os * (3 : Nat) - (-5)) = none ∧
    (s .sym).n = 4 ∧ (s .sym).nused = 3 :=
  ⟨fun sp => by cases sp <;> exact ⟨rfl, rfl⟩, by unfold Written; decide +kernel⟩

/-- Every position that reads a memory, with that memory unwritten; the first step in `SYNC` without a preamble; and an invocation
with input enough whose window, and one whose `DOWN`, is unwritten. -/
theorem witness_StepsOnUnwrittenOperandsFault :
    let s := lacking
    let w := fun (sp : Space) => { s sp .detect .netId1 with mail := { bench.mail with inAvail := 12 } }
    let b := fun (sp : Space) => after (exec .fdly (after (exec .drain { w sp with test := true })))
    (¬Written (s .sym .detect .netId1) .sym 4 ∧ Written (s .down .detect .netId1) .sym 4 ∧
      ¬Written (s .down .detect .netId1) .down 4) ∧
    exec .cfoest { s .pre .sync .netId1 with acq := { bench.acq with state := .sync } } = .fault (.unwritten .pre) ∧
    (¬Written (s .corr .sync .netId1) .corr 4 ∧ ¬Written (s .down .sync .netId2) .down 4 ∧
      ¬Written (s .up .sync .downchirp2) .up 4 ∧ (s .up .sync .downchirp2).acq.estDone = true) ∧
    (¬Written (s .corr .fracCfoCorrec .quarterDown) .corr 4 ∧
      (s .corr .fracCfoCorrec .quarterDown).acq.symCnt.toNat < (s .corr .fracCfoCorrec .quarterDown).acq.symbNumb.toNat) ∧
    ((w .inbuf).started = true ∧ (w .inbuf).os * ((w .inbuf).n + 2) ≤ 12 ∧
      completes (exec .fdly (after (exec .drain { w .inbuf with test := true }))) = true ∧
      exec .downs (b .inbuf) = .fault (.unwritten .inbuf)) ∧
    (completes (exec .downs (b .down)) = true ∧
      exec .fsmstep (after (exec .downs (b .down))) = .fault (.unwritten .down)) := by
  unfold Written; refine ⟨?_, rfl, ?_, ?_, ⟨?_, ?_, ?_, rfl⟩, ?_, rfl⟩ <;> decide +kernel

/-- The greatest offset with the least and the greatest oversampling, and the word next to the open end. -/
theorem witness_DelayTapStaysInItsRange :
    let s := fun (os : BitVec 5) (lam : Word) => ({ bench with
      cfg := { bench.cfg with os := os }, acq := { bench.acq with lambdaSto := lam } } : State)
    (1 ≤ (s 1 0).os ∧ (s 1 0).os ≤ 16 ∧ 1 ≤ (s 16 0).os ∧ (s 16 0).os ≤ 16) ∧
    fractionalWord 0x3F000000 ∧ fractionalWord 0xBEFFFFFF ∧ ¬fractionalWord 0xBF000000 ∧
    completes (exec .fdly (s 1 0x3F000000)) = true ∧ completes (exec .fdly (s 16 0xBEFFFFFF)) = true := by
  unfold fractionalWord; decide +kernel

theorem witness_GenAndCfoestAreIdempotent :
    Testing bench ∧ completes (exec .gen bench) = true ∧ completes (exec .cfoest bench) = true := by
  unfold Testing; decide +kernel

theorem witness_DetectStepTracksThePreamble :
    Testing bench ∧ bench.acq.state = .detect ∧ Written bench .sym bench.n ∧ Written bench .down bench.n := by
  unfold Testing Written; decide +kernel

theorem witness_FirstSyncStepRunsTheEstimators :
    let s : State := { bench with acq := { bench.acq with state := .sync } }
    let a := after (exec .cfoest s)
    Testing s ∧ s.acq.state = .sync ∧ s.acq.estDone = false ∧ completes (exec .cfoest s) = true ∧
    completes (exec .stoest a) = true := by
  unfold Testing; decide +kernel

/-- The bench at `NET_ID1` with the tone of bin 1, 2 or 0 in `SYM` (`DOWN` and `CORR` being ones), and given identifiers. -/
def Tests.hearing (x : List Sample) (id : BitVec 12) : State :=
  { benchAt .sync .netId1 with
    cfg := { bench.cfg with sync0 := id, sync1 := id }, mems := { bench.mems with sym := memOf x } }

/-- The samples 1, -1, 1, -1: the tone of bin 2 for `N = 4`, the one bin outside the ignore set. -/
def Tests.alternating : List Sample := [(one, 0), (minusOne, 0), (one, 0), (minusOne, 0)]

/-- An ignored bin; bin 2 with an identifier within 1 of it and with one that is not; silence. -/
theorem witness_NetId1StepIgnoresFailsOrAdvances :
    (Testing (hearing tone 2) ∧ (hearing tone 2).acq.state = .sync ∧ (hearing tone 2).acq.syncPos = .netId1 ∧
      (hearing tone 2).acq.estDone = true ∧ Written (hearing tone 2) .sym 4 ∧ Written (hearing tone 2) .corr 4 ∧
      Written (hearing tone 2) .down 4 ∧ (hearing tone 2).n = 4) ∧
    ((hearing tone 2).nums.demod (hearing tone 2).corrected ((hearing tone 2).vec .down 4)).1 = some 1 ∧
    ((hearing alternating 3).nums.demod (hearing alternating 3).corrected ((hearing alternating 3).vec .down 4)).1 = some 2 ∧
    ((2 : Int) - (hearing alternating 3).cfg.netId1).natAbs ≤ 1 ∧ 1 < ((2 : Int) - (hearing alternating 4).cfg.netId1).natAbs ∧
    ((hearing (zeros 4) 2).nums.demod (hearing (zeros 4) 2).corrected ((hearing (zeros 4) 2).vec .down 4)).1 = none := by
  unfold Testing Written; decide +kernel

/-- A deviation that repeats, one that does not, a failed check; silence is the witness above. -/
theorem witness_NetId2StepFailsOrCompensates :
    let s := fun (id : BitVec 12) => { hearing alternating id with
      acq := { (hearing alternating id).acq with syncPos := .netId2, netIdOff := 1 } }
    (Testing (s 1) ∧ (s 1).acq.state = .sync ∧ (s 1).acq.syncPos = .netId2 ∧ (s 1).acq.estDone = true ∧
      Written (s 1) .sym 4 ∧ Written (s 1) .corr 4 ∧ Written (s 1) .down 4) ∧
    ((s 1).nums.demod (s 1).corrected ((s 1).vec .down 4)).1 = some 2 ∧
    (2 : Int) - (s 1).cfg.netId2 = (s 1).acq.netIdOff.toInt ∧ ((2 : Int) - (s 3).cfg.netId2).natAbs ≤ 1 ∧
    1 < ((2 : Int) - (s 0).cfg.netId2).natAbs := by
  unfold Testing Written; decide +kernel

theorem witness_DownchirpStepsAdvanceAndStoreTheResult :
    let s := fun p => benchAt .sync p
    Testing (s .downchirp1) ∧ (s .downchirp1).acq.syncPos = .downchirp1 ∧ (s .downchirp1).acq.estDone = true ∧
    Testing (s .downchirp2) ∧ (s .downchirp2).acq.syncPos = .downchirp2 ∧ (s .downchirp2).acq.state = .sync ∧
    Written (s .downchirp2) .sym 4 ∧ Written (s .downchirp2) .corr 4 ∧ Written (s .downchirp2) .up 4 := by
  unfold Testing Written; decide +kernel

/-- Without a down-chirp result, and with the greatest (`N - 1`) and the one at half the alphabet. -/
theorem witness_QuarterDownStepEntersTheFrame :
    let s := fun (v : Word) => { benchAt .sync .quarterDown with acq := { (benchAt .sync .quarterDown).acq with downVal := v } }
    Testing (s 3) ∧ (s 3).acq.state = .sync ∧ (s 3).acq.syncPos = .quarterDown ∧ (s 3).acq.estDone = true ∧
    (s 3).acq.downVal ≠ 0xFFFFFFFF ∧ (s 2).acq.downVal ≠ 0xFFFFFFFF ∧ (s nosymWord).acq.downVal = 0xFFFFFFFF := by
  unfold Testing; decide +kernel

/-- One symbol outstanding; none. -/
theorem witness_FrameStepsEmitThenEnd :
    let s := fun (c : Word) => { benchAt .fracCfoCorrec .quarterDown with
      acq := { (benchAt .fracCfoCorrec .quarterDown).acq with symCnt := c } }
    Testing (s 7) ∧ (s 7).acq.state = .fracCfoCorrec ∧ (s 7).acq.symCnt.toNat < (s 7).acq.symbNumb.toNat ∧
    Written (s 7) .sym (s 7).n ∧ Written (s 7) .corr (s 7).n ∧
    (s 8).acq.symbNumb.toNat ≤ (s 8).acq.symCnt.toNat := by
  unfold Testing Written; decide +kernel

/-- A step, a drain, a command that does not move; and an invocation that makes progress and one that does not. -/
theorem witness_SequencerMovesByTheTransitionTable :
    Testing bench ∧ completes (exec .fsmstep bench) = true ∧ completes (exec .drain bench) = true ∧
    completes (exec .gen bench) = true ∧ benchRun.started = true ∧ completes (exec .work benchRun) = true ∧
    completes (exec .work { benchRun with mail := { bench.mail with inAvail := 12 } }) = true := by
  unfold Testing; decide +kernel

/-- The block just started in `RUN` mode with a whole window written (`WIN_REQ = 130` samples). -/
def Tests.ready : State := State.storeElems running .inbuf 0 (zeros 130)

/-- A block just started with a window written: what its memories hold, for any configuration. -/
theorem Tests.started_mems (s : State) (m : Mode) (xs : List Sample) :
    let t := State.storeElems (s.construct m) .inbuf 0 xs
    t.mem .up = (s.mem .up).store (2 * 0) (wordsOf (s.nums.gen s.cfg.sf.toNat 1).1) ∧
    t.mem .down = (s.mem .down).store (2 * 0) (wordsOf (s.nums.gen s.cfg.sf.toNat 1).2) ∧
    t.mem .corr = (s.mem .corr).store (2 * 0) (wordsOf (List.replicate s.n s.nums.cone)) ∧
    t.mem .pre = s.mem .pre ∧ t.nums = s.nums ∧ t.n = s.n := ⟨rfl, rfl, rfl, rfl, rfl, rfl⟩

theorem Tests.holds_store (m : Mem) (xs : List Sample) (j : Nat) (x : Sample) (h : xs[j]? = some x) :
    (m.store (2 * 0) (wordsOf xs)).elem ((0 + j : Nat) : Int) = some x := by
  have hl : j < xs.length := (List.getElem?_eq_some_iff.1 h).1
  rw [Nat.zero_add, Mem.elem_store, if_pos ⟨by omega, by omega⟩]
  exact h

theorem Tests.started_running (s : State) (m : Mode) (xs : List Sample) (ops : List BusOp) (h : s.cfg.valid = true) :
    Running { State.storeElems (s.construct m) .inbuf 0 xs with bus := ops } where
  valid := h
  up := fun j x hx => holds_store (s.mem .up) _ j x hx
  down := fun j x hx => holds_store (s.mem .down) _ j x hx
  corr := Mem.written_store_self (s.mem .corr) (List.replicate s.n s.nums.cone) s.n (by simp)
  run := by
    have : (indices (0 * s.n)) = [] := by simp [indices]
    show (s.mem .pre).written (indices (0 * s.n)) = true
    rw [this]; rfl
  detect := fun _ => by
    have hv : 3 ≤ s.cfg.nup.toNat := by
      unfold Cfg.valid at h; simp only [Bool.and_eq_true, decide_eq_true_eq] at h; omega
    exact ⟨rfl, rfl, show 0 + 1 < s.cfg.nup.toNat by omega, Nat.zero_le _, rfl, rfl, rfl, rfl, rfl⟩
  tracked := fun h => absurd rfl h
  sync := nofun
  frac := nofun
  binPrev := .inl rfl
  downVal := .inl rfl
  netIdOff := .inl rfl
  consumed := ⟨0, Nat.zero_le _, rfl⟩
  produced := .inl rfl
  outCount := Nat.zero_mod _

theorem Tests.started_runMode (s : State) (m : Mode) (xs : List Sample) (ops : List BusOp) :
    RunMode { State.storeElems (s.construct m) .inbuf 0 xs with bus := ops } := fun _ _ _ =>
  { lambdaCfo := rfl
    lambdaSto := rfl
    corr := fun j hj => by
      have h := holds_store (s.mem .corr) (List.replicate s.n s.nums.cone) j s.nums.cone (by
        rw [List.getElem?_replicate]; exact if_pos hj)
      rwa [Nat.zero_add] at h
    sum := rfl
    last := rfl }

theorem Tests.ready_protocol (ops : List BusOp) : Protocol { ready with bus := ops } :=
  ⟨Nat.zero_le _, nofun, fun _ => started_running State.reset .run (zeros 130) ops (by decide)⟩

theorem Tests.ready_runMode (ops : List BusOp) : RunMode { ready with bus := ops } :=
  started_runMode State.reset .run (zeros 130) ops

theorem Tests.started_canonical (s : State) (m : Mode) (xs : List Sample) (ops : List BusOp) (h : CanonicalMemories s) :
    CanonicalMemories { State.storeElems (s.construct m) .inbuf 0 xs with bus := ops } := by
  intro sp
  cases sp with
  | inbuf => exact Mem.store_wf _ _ _ (h .inbuf)
  | up => exact Mem.store_wf _ _ _ (h .up)
  | down => exact Mem.store_wf _ _ _ (h .down)
  | corr => exact Mem.store_wf _ _ _ (h .corr)
  | outbuf => exact h .outbuf
  | sym => exact h .sym
  | pre => exact h .pre
  | prec => exact h .prec

theorem Tests.ready_canonical (ops : List BusOp) : CanonicalMemories { ready with bus := ops } :=
  started_canonical State.reset .run (zeros 130) ops fun sp => by cases sp <;> exact List.Pairwise.nil

theorem Tests.nop_step (s : State) :
    step { s with bus := [.write cmdAddr 0] } = .next { s with bus := [], err := .none } := rfl

theorem Tests.ready_fractional (ops : List BusOp) : OffsetsFractional { ready with bus := ops } :=
  have h : fractionalWord 0 := by unfold fractionalWord; decide +kernel
  ⟨h, h⟩

theorem Tests.started_window (s : State) (m : Mode) (xs : List Sample) (n : Nat) (h : s.mem .inbuf = []) (hn : xs.length = n) :
    Written (State.storeElems (s.construct m) .inbuf 0 xs) .inbuf n := by
  have e : (State.storeElems (s.construct m) .inbuf 0 xs).mem .inbuf = (s.mem .inbuf).store (2 * 0) (wordsOf xs) := rfl
  unfold Written
  rw [e, h]
  exact Mem.written_store_self [] xs n (Nat.le_of_eq hn.symm)

theorem Tests.started_facts (s : State) (m : Mode) (xs : List Sample) :
    (State.storeElems (s.construct m) .inbuf 0 xs).started = true ∧ (State.storeElems (s.construct m) .inbuf 0 xs).os = s.os ∧
    (State.storeElems (s.construct m) .inbuf 0 xs).n = s.n := ⟨rfl, rfl, rfl⟩

theorem Tests.of_any_bus (p : State → Prop) (s : State) (h : ∀ ops, p { s with bus := ops }) : p s := h s.bus

theorem witness_WorkCompletesOnAWrittenWindow :
    ready.started = true ∧ Protocol ready ∧ OffsetsFractional ready ∧ Written ready .inbuf (1 * (128 + 2)) ∧
    ready.os = 1 ∧ ready.n = 128 :=
  have f := started_facts State.reset .run (zeros 130)
  ⟨f.1, of_any_bus _ ready ready_protocol, of_any_bus _ ready ready_fractional,
    started_window State.reset .run (zeros 130) _ rfl (by unfold zeros; rw [List.length_replicate]),
    f.2.1.trans (by decide), f.2.2.trans (by decide)⟩

/-- `NOP` on the bus of any state, as the statements about every step take it. -/
theorem Tests.nop_on (s : State) (hc : ∀ ops, CanonicalMemories { s with bus := ops }) (hp : ∀ ops, Protocol { s with bus := ops })
    (hr : ∀ ops, RunMode { s with bus := ops }) (hf : ∀ ops, OffsetsFractional { s with bus := ops }) (hs : s.started = true) :
    ∃ a b : State, CanonicalMemories a ∧ Protocol a ∧ RunMode a ∧ OffsetsFractional a ∧ a.started = true ∧ step a = .next b ∧
      b.started = true :=
  ⟨{ s with bus := [.write cmdAddr 0] }, { s with bus := [], err := .none }, hc _, hp _, hr _, hf _, hs, nop_step s, hs⟩

/-- The invariants hold of a state whose next step runs a command (`ready` with `NOP` on its bus): the hypotheses of each
statement about every step, and of `ReferenceChirpsAreConstant`. -/
theorem witness_invariants :
    ∃ a b : State, CanonicalMemories a ∧ Protocol a ∧ RunMode a ∧ OffsetsFractional a ∧ a.started = true ∧ step a = .next b ∧
      b.started = true :=
  nop_on ready ready_canonical ready_protocol ready_runMode ready_fractional rfl

/-- An invocation at `QUARTER_DOWN` with a down-chirp result. -/
theorem witness_TagsAppearOnlyAtFrameEntry :
    let s : State := { benchAt .sync .quarterDown with
      acq := { (benchAt .sync .quarterDown).acq with downVal := 2 }, mail := { bench.mail with inAvail := 12 } }
    s.started = true ∧ completes (exec .work s) = true ∧ (after (exec .work s)).report.tagValid = true := by decide +kernel

theorem witness_CountersGrowByWhatIsReported : bench.started = true ∧ completes (exec .work bench) = true := by
  decide +kernel

/-- The two ends of the range of `c`, for `N = 128`. -/
theorem witness_IntegerOffsetRoundTrips :
    (2 : Nat) ≤ 7 ∧ -(2 ^ 7 / 4 : Int) ≤ -32 ∧ (-32 : Int) < 2 ^ 7 / 4 ∧ -(2 ^ 7 / 4 : Int) ≤ 31 ∧ (31 : Int) < 2 ^ 7 / 4 := by
  decide

theorem witness_MeanBinIsTheNearestInteger : [4, 5, 5, 4] ≠ [] ∧ ∀ b ∈ [4, 5, 5, 4], 4 ≤ b ∧ b ≤ 5 := by decide

/-- The maximum stands twice, and the value before it is less. -/
theorem witness_PeakIsTheLeastIndexOfTheMaximum :
    [0#32, one, one][1]? = some one ∧ F32.ge one 0 = true ∧ F32.ge one one = true ∧ F32.ge 0 one = false := by
  decide +kernel

theorem witness_ChirpPairHasTheStatedProperties : (7 : ℕ) ≤ 12 ∧ (12 : ℕ) ≤ 12 ∧ (1 : ℕ) ≤ 1 := by decide

theorem witness_NoiselessSymbolDecodesToItsValue : (7 : ℕ) ≤ 7 ∧ (7 : ℕ) ≤ 12 ∧ 127 < 2 ^ 7 := by decide

theorem witness_EnergyIsTheSumOfSquaredMagnitudes : [((1 : ℝ), (0 : ℝ))] ≠ [] := by simp

theorem witness_SubBinCorrectionIsBounded :
    ((0 : ℝ) + 0 + 2.4674 * 0 = 0) ∧ (0 : ℝ) ≤ 0 ∧ (0 : ℝ) ≤ 1 ∧ (1 : ℝ) ≤ 1 := by norm_num

end Sys2Proof.Machine
end

section
/-! Rounding of a non-negative fraction (rule R12) and the mean of the matched bins (rule R193). Everything is read off one
fact: the rounded value of `num / den` is the floor of `(2 num + den) / (2 den)`. -/

namespace Sys2Proof.Machine

theorem roundHazFrac_natCast (num den : Nat) : roundHazFrac num den = ((2 * num + den) / (2 * den) : Nat) := by
  have nonneg : ¬ (num : Int) < 0 := by omega
  simp [roundHazFrac, nonneg]

/-- `k <= num / den + 1/2`, multiplied out. -/
theorem roundHazFrac_mul_le (num den : Nat) : 2 * roundHazFrac num den * den ≤ 2 * (num : Int) + den := by
  rw [roundHazFrac_natCast]
  have floor_le := Nat.div_mul_le_self (2 * num + den) (2 * den)
  zify at floor_le ⊢
  linarith

/-- `num / den - 1/2 < k`, multiplied out. -/
theorem lt_roundHazFrac_mul {num den : Nat} (hden : 0 < den) : 2 * (num : Int) - den < 2 * roundHazFrac num den * den := by
  rw [roundHazFrac_natCast]
  have lt_floor := Nat.lt_div_mul_add (a := 2 * num + den) (b := 2 * den) (by omega)
  zify at lt_floor ⊢
  linarith

theorem le_roundHazFrac {num den lo : Nat} (hden : 0 < den) (h : den * lo ≤ num) : (lo : Int) ≤ roundHazFrac num den := by
  rw [roundHazFrac_natCast, Int.ofNat_le, Nat.le_div_iff_mul_le (by omega)]
  linarith

theorem roundHazFrac_le {num den hi : Nat} (hden : 0 < den) (h : num ≤ den * hi) : roundHazFrac num den ≤ hi := by
  rw [roundHazFrac_natCast, Int.ofNat_le, ← Nat.lt_succ_iff, Nat.div_lt_iff_lt_mul (by omega), Nat.succ_eq_add_one]
  linarith

/-- Settles O46: the sum of the bins lies between `length * lo` and `length * hi`, and rounding keeps whole bounds. -/
theorem meanBinIsTheNearestInteger : Obligations.MeanBinIsTheNearestInteger := by
  intro bins lo hi hne hbins
  have hlen : 0 < bins.length := List.length_pos_of_ne_nil hne
  have lo_le : bins.length * lo ≤ bins.sum := bins.card_nsmul_le_sum lo fun b hb => (hbins b hb).1
  have le_hi : bins.sum ≤ bins.length * hi := bins.sum_le_card_nsmul hi fun b hb => (hbins b hb).2
  exact ⟨le_roundHazFrac hlen lo_le, roundHazFrac_le hlen le_hi, lt_roundHazFrac_mul hlen, roundHazFrac_mul_le _ _⟩

end Sys2Proof.Machine
end

section
/-! The course of one step, said once: which command bodies there are, what a write that answers a next state has done, and
the induction over steps by which an invariant is proved. -/

namespace Sys2Proof.Machine

/-! ### The bodies of the unit commands -/

/-- What a unit-level command does once its checks have passed; a host-level command has no such body. -/
def runUnit : Instr → State → Except Fault State
  | .gen, s => .ok s.generate
  | .demod ref src, s => do
    let x ← readSource src s
    let bs ← correlate x ref s
    .ok bs.2
  | .interp, s => .ok s.interpolate
  | .cfoest, s => runCfoest s
  | .cfoalt, s => do
    let pre ← readPreamble .pre s
    let down ← readVector .down s
    .ok (s.setAlt (s.nums.cfoalt s.n s.nused pre down))
  | .stoest, s => runStoest s
  | .fdly, s => .ok s.setTap
  | .downs, s => runDowns s
  | .fsmstep, s => fsmStep s
  | .drain, s => .ok s.drainEvents
  | _, s => .ok s

theorem exec_unit (i : Instr) (s : State) (h : unitLevel i = true) : exec i s = unitCommand (runUnit i) s := by
  cases i <;> first | rfl | cases h

theorem runUnit_demod_ok (ref : RefSel) (src : SrcSel) (s t : State) (h : runUnit (.demod ref src) s = .ok t) :
    ∃ be, t = s.setCorrelator be := by
  obtain ⟨x, -, h⟩ := (bind_ok _ _ _).1 h
  obtain ⟨bs, hbs, h⟩ := (bind_ok _ _ _).1 h
  obtain ⟨-, rfl⟩ := (correlate_ok _ _ _ _).1 hbs
  exact ⟨_, (Except.ok.inj h).symm⟩

theorem runUnit_cfoalt_ok (s t : State) (h : runUnit .cfoalt s = .ok t) : ∃ r, t = s.setAlt r := by
  obtain ⟨x, -, h⟩ := (bind_ok _ _ _).1 h
  obtain ⟨y, -, h⟩ := (bind_ok _ _ _).1 h
  exact ⟨_, (Except.ok.inj h).symm⟩

/-! ### What a command has done -/

/-- How a command that answers a next state got there: it was refused, or its checks passed and its body completed. -/
inductive Executed (s : State) : Instr → State → Prop
  | refused (i : Instr) (c : ErrCode) : Executed s i (s.setErr c)
  | nop : Executed s .nop (s.setErr .none)
  | reset : Executed s .reset (s.resetBlock.setErr .none)
  | start (m : Mode) (h : s.started = false) (v : s.cfg.valid = true) : Executed s (.start m) ((s.construct m).setErr .none)
  | frameInfo (h : s.started = true) (room : s.evq.length < Config.evqDepth) :
      Executed s .frameInfo (State.setErr { s with evq := s.evq ++ [s.mail.event] } .none)
  | work (u : State) (h : s.started = true) (run : invoke s = .ok u) : Executed s .work (u.setErr .none)
  | unit (i : Instr) (u : State) (h : s.started = true) (m : s.test = true) (run : runUnit i s = .ok u) :
      Executed s i (u.setErr .none)

theorem execStart_next (m : Mode) (s t : State) (h : execStart m s = .next t) : Executed s (.start m) t := by
  unfold execStart at h
  cases hs : s.started with
  | true => rw [hs, if_pos rfl, cmdError_next] at h; exact h ▸ .refused _ _
  | false =>
    rw [hs, if_neg nofun] at h
    cases hv : s.cfg.valid with
    | true =>
      rw [hv, if_pos rfl, finish_next] at h
      obtain ⟨u, hu, rfl⟩ := h
      exact Except.ok.inj hu ▸ .start m hs hv
    | false => rw [hv, if_neg nofun, cmdError_next] at h; exact h ▸ .refused _ _

theorem execFrameInfo_next (s t : State) (h : execFrameInfo s = .next t) : Executed s .frameInfo t := by
  unfold execFrameInfo at h
  split at h
  · rw [(cmdError_next _ _ _).1 h]; exact .refused _ _
  · next hfull =>
    obtain ⟨hs, u, hu, rfl⟩ | ⟨-, rfl⟩ := (hostCommand_next _ _ _).1 h
    · rw [← Except.ok.inj hu]
      exact .frameInfo hs (by simpa [hs] using hfull)
    · exact .refused _ _

theorem execUnit_next (i : Instr) (s t : State) (hi : unitLevel i = true) (h : exec i s = .next t) : Executed s i t := by
  rw [exec_unit i s hi, unitCommand_next] at h
  obtain ⟨hs, ht, u, hu, rfl⟩ | ⟨-, -, rfl⟩ | ⟨-, rfl⟩ := h
  · exact .unit i u hs ht hu
  · exact .refused _ _
  · exact .refused _ _

theorem exec_next (i : Instr) (s t : State) (h : exec i s = .next t) : Executed s i t := by
  cases hi : unitLevel i with
  | true => exact execUnit_next i s t hi h
  | false =>
    cases i with
    | nop => exact Host.Outcome.next.inj h ▸ .nop
    | reset => exact Host.Outcome.next.inj h ▸ .reset
    | start m => exact execStart_next m s t h
    | work =>
      obtain ⟨hs, u, hu, rfl⟩ | ⟨-, rfl⟩ := (hostCommand_next invoke s t).1 h
      · exact .work u hs hu
      · exact .refused _ _
    | frameInfo => exact execFrameInfo_next s t h
    | _ => cases hi

/-! ### The addresses of the registers -/

theorem regOfNumber_cmd (k : Nat) (h : regOfNumber k = some .cmd) : k = 0x10 := by
  unfold regOfNumber at h
  split at h <;> first | rfl | simp at h

theorem spaceField_toNat (a : Addr) : (a.extractLsb' 20 4).toNat = a.toNat / 2 ^ 20 := by
  rw [BitVec.extractLsb'_toNat, Nat.shiftRight_eq_div_pow]; omega

theorem lt_of_spaceOf_reg (a : Addr) (h : spaceOf a = .reg) : a.toNat < 2 ^ 20 := by
  unfold spaceOf at h
  split at h
  · next hspace => rw [spaceField_toNat] at hspace; omega
  all_goals cases h

theorem offsetOf_eq (a : Addr) : offsetOf a = a.toNat % 2 ^ 20 := by
  rw [offsetOf, BitVec.extractLsb'_toNat]; rfl

theorem eq_cmdAddr (a : Addr) (hs : spaceOf a = .reg) (ho : offsetOf a = 0x10) : a = cmdAddr := by
  have hlt := lt_of_spaceOf_reg a hs
  rw [offsetOf_eq] at ho
  exact BitVec.eq_of_toNat_eq (show a.toNat = 0x10 by omega)

/-! ### What a write has done -/

/-- The host may write the sample memory now (rule R65). -/
def HostWritable (s : State) (sp : Space) : Prop :=
  s.started = true ∧ (sp = .inbuf ∨ ((sp = .sym ∨ sp = .pre) ∧ s.test = true))

/-- How a write of `w` to `a` that answers a next state got there. -/
inductive Wrote (a : Addr) (w : Word) (s : State) : State → Prop
  | refused (c : ErrCode) : Wrote a w s (s.setErr c)
  | register (r : Reg) (h : r.access.admits s) : Wrote a w s (writeReg s r w)
  | sample (sp : Space) (off : Nat) (h : HostWritable s sp) : Wrote a w s (s.setMem sp ((s.mem sp).store off [w]))
  | command (i : Instr) (t : State) (ha : a = cmdAddr) (hw : decode w = .ok i) (h : Executed s i t) : Wrote a w s t

theorem access_eq_wo (r : Reg) (h : r.access = .wo) : r = .cmd := by
  cases r <;> first | rfl | simp [Reg.access] at h

theorem writeRegister_next (a : Addr) (r : Reg) (w : Word) (s t : State) (ha : r = .cmd → a = cmdAddr)
    (h : writeRegister r w s = .next t) : Wrote a w s t := by
  unfold writeRegister at h
  split at h
  · rw [(cmdError_next _ _ _).1 h]; exact .refused _
  next hro =>
  split at h
  · rw [(cmdError_next _ _ _).1 h]; exact .refused _
  next hrwc =>
  split at h
  · rw [(cmdError_next _ _ _).1 h]; exact .refused _
  next hrwt =>
  split at h
  · rw [(cmdError_next _ _ _).1 h]; exact .refused _
  split at h
  · next hcmd =>
    unfold execWord at h
    split at h
    · next i hi => exact .command i t (ha hcmd) hi (exec_next i s t h)
    · rw [(cmdError_next _ _ _).1 h]; exact .refused _
  · next hcmd =>
    rw [← Host.Outcome.next.inj h]
    refine .register r ?_
    unfold Access.admits
    cases hacc : r.access with
    | ro => exact absurd hacc hro
    | rw => exact .inl rfl
    | rwc => exact .inr (.inl ⟨rfl, by simpa [hacc] using hrwc⟩)
    | rwt => exact .inr (.inr ⟨rfl, by simpa [hacc] using hrwt⟩)
    | wo => exact absurd (access_eq_wo r hacc) hcmd

theorem writeSample_next (a : Addr) (sp : Space) (off : Nat) (w : Word) (s t : State)
    (h : writeSample sp off w s = .next t) : Wrote a w s t := by
  unfold writeSample at h
  split at h
  · rw [(cmdError_next _ _ _).1 h]; exact .refused _
  next hstarted =>
  split at h
  · rw [(cmdError_next _ _ _).1 h]; exact .refused _
  next hreadOnly =>
  split at h
  · rw [(cmdError_next _ _ _).1 h]; exact .refused _
  next htest =>
  split at h
  · rw [(cmdError_next _ _ _).1 h]; exact .refused _
  · rw [← Host.Outcome.next.inj h]
    refine .sample sp off ⟨by simpa using hstarted, ?_⟩
    cases sp <;> simp_all [Space.hostAccess]

theorem busWrite_next (a : Addr) (w : Word) (s t : State) (h : busWrite a w s = .next t) : Wrote a w s t := by
  unfold busWrite at h
  split at h
  · next hspace =>
    split at h
    · next r hr =>
      refine writeRegister_next a r w s t (fun hcmd => eq_cmdAddr a hspace ?_) h
      exact regOfNumber_cmd _ (hcmd ▸ hr)
    · rw [(cmdError_next _ _ _).1 h]; exact .refused _
  · exact writeSample_next a _ _ w s t h
  · rw [(cmdError_next _ _ _).1 h]; exact .refused _

/-! ### Induction over the steps -/

/-- What is to be shown of a predicate for every step to keep it: one goal per update a step can end in. -/
structure StepKeeps (P : State → Prop) : Prop where
  bus : ∀ s ops, P s → P (s.setBus ops)
  busData : ∀ s w, P s → P (s.setBusData w)
  err : ∀ s c, P s → P (s.setErr c)
  register : ∀ s r w, r.access.admits s → P s → P (writeReg s r w)
  sample : ∀ s sp off w, HostWritable s sp → P s → P (s.setMem sp ((s.mem sp).store off [w]))
  reset : ∀ s, P s → P s.resetBlock
  start : ∀ s m, s.started = false → s.cfg.valid = true → P s → P (s.construct m)
  frameInfo : ∀ s : State, s.started = true → s.evq.length < Config.evqDepth → P s →
    P { s with evq := s.evq ++ [s.mail.event] }
  work : ∀ s t, s.started = true → invoke s = .ok t → P s → P t
  unit : ∀ i s t, s.started = true → s.test = true → runUnit i s = .ok t → P s → P t

theorem StepKeeps.executed {P : State → Prop} (k : StepKeeps P) {i : Instr} {s t : State} (h : Executed s i t) (hs : P s) :
    P t := by
  cases h with
  | refused i c => exact k.err s c hs
  | nop => exact k.err s _ hs
  | reset => exact k.err _ _ (k.reset s hs)
  | start m h v => exact k.err _ _ (k.start s m h v hs)
  | frameInfo h room => exact k.err _ _ (k.frameInfo s h room hs)
  | work u h run => exact k.err _ _ (k.work s u h run hs)
  | unit i u h m run => exact k.err _ _ (k.unit i s u h m run hs)

theorem StepKeeps.wrote {P : State → Prop} (k : StepKeeps P) {a : Addr} {w : Word} {s t : State} (h : Wrote a w s t)
    (hs : P s) : P t := by
  cases h with
  | refused c => exact k.err s c hs
  | register r h => exact k.register s r w h hs
  | sample sp off h => exact k.sample s sp off w h hs
  | command i t ha hw h => exact k.executed h hs

theorem StepKeeps.step {P : State → Prop} (k : StepKeeps P) {s t : State} (hs : P s) (h : step s = .next t) : P t := by
  obtain ⟨-, rfl⟩ | ⟨a, rest, w, -, -, rfl⟩ | ⟨a, w, rest, -, h⟩ := (step_next s t).1 h
  · exact hs
  · exact k.busData _ w (k.bus s rest hs)
  · exact k.wrote (busWrite_next a w _ t h) (k.bus s rest hs)

end Sys2Proof.Machine
end

section
/-! The elementary updates the bodies of the commands are made of. A body only ever stores samples, sets an offset to a folded
value, resets the acquisition context, or changes registers that no statement about a whole step speaks of. -/

namespace Sys2Proof.Machine

/-- What the statements about a whole step speak of. -/
structure Core where
  started : Bool
  test : Bool
  cfg : Cfg
  mems : SampleMems
  lambdaCfo : Word
  lambdaSto : Word
  inCount : BitVec 64
  outCount : BitVec 64
  evq : List Event

/-- The core of a state: mode, configuration, memories, fractional offsets, sample counts and queue. -/
def State.core (s : State) : Core :=
  ⟨s.started, s.test, s.cfg, s.mems, s.acq.lambdaCfo, s.acq.lambdaSto, s.count.inCount, s.count.outCount, s.evq⟩

/-- One elementary update. -/
inductive Update (s : State) : State → Prop
  | registers {t : State} (h : t.core = s.core) : Update s t
  | store (sp : Space) (i : Nat) (xs : List Sample) : Update s (s.storeElems sp i xs)
  | foldCfo (x : Word) : Update s { s with acq := { s.acq with lambdaCfo := s.nums.fold x } }
  | foldSto (x : Word) : Update s { s with acq := { s.acq with lambdaSto := s.nums.fold x } }
  | neutral : Update s { s with acq := Acq.neutral s.cfg.hdrSyms }
  | drain : Update s { s with evq := [] }

/-- Elementary updates one after another. -/
def Updates : State → State → Prop := Relation.ReflTransGen Update

theorem Updates.refl (s : State) : Updates s s := Relation.ReflTransGen.refl

theorem Updates.trans {s t u : State} (h : Updates s t) (h' : Updates t u) : Updates s u := Relation.ReflTransGen.trans h h'

theorem Updates.tail {s t u : State} (h : Updates s t) (h' : Update t u) : Updates s u := Relation.ReflTransGen.tail h h'

theorem Updates.of_core_eq {s t : State} (h : t.core = s.core) : Updates s t := (Updates.refl s).tail (.registers h)

theorem Updates.registers {s t u : State} (h : Updates s t) (e : u.core = t.core) : Updates s u := h.tail (.registers e)

theorem Updates.store {s t : State} (h : Updates s t) (sp : Space) (i : Nat) (xs : List Sample) :
    Updates s (t.storeElems sp i xs) := h.tail (.store sp i xs)

/-- What every elementary update keeps, every sequence of them keeps. -/
theorem Updates.keeps {P : State → Prop} {s t : State} (h : Updates s t) (step : ∀ a b, Update a b → P a → P b) (hs : P s) :
    P t := by
  induction h with
  | refl => exact hs
  | tail _ hbc ih => exact step _ _ hbc ih

/-! ### The operations as updates -/

theorem Updates.generate {s t : State} (h : Updates s t) : Updates s t.generate := (h.store _ _ _).store _ _ _

theorem Updates.consume {s t : State} (h : Updates s t) (v : Int) : Updates s (t.consume v) :=
  h.registers rfl

theorem Updates.resync {s t : State} (h : Updates s t) (c : Cause) : Updates s (t.resync c) :=
  ((h.store .corr 0 (List.replicate t.n t.nums.cone)).tail .neutral).registers rfl

theorem Updates.setCorrelator {s t : State} (h : Updates s t) (be : Option Nat × Word) : Updates s (t.setCorrelator be) :=
  h.registers rfl

theorem runCfoest_updates {s t : State} (h : runCfoest s = .ok t) : Updates s t := by
  obtain ⟨-, -, rfl⟩ := (runCfoest_ok s t).1 h
  have peak (p : Peak Word) (ka : Word) : Updates s (s.setPeak p ka) := .of_core_eq rfl
  exact (((peak _ _).store .prec 0 _).store .corr 0 _).tail (.foldCfo _)

theorem runStoest_updates {s t : State} (h : runStoest s = .ok t) : Updates s t := by
  obtain ⟨-, -, rfl⟩ := (runStoest_ok s t).1 h
  have peak (p : Peak Word) (ka : Word) : Updates s (s.setPeak p ka) := .of_core_eq rfl
  exact (peak _ _).tail (.foldSto _)

theorem runDowns_updates {s t : State} (h : runDowns s = .ok t) : Updates s t := by
  obtain ⟨-, rfl⟩ := (runDowns_ok s t).1 h
  exact (Updates.refl s).store _ _ _

theorem applyEvent_updates (s : State) (ev : Event) : Updates s (s.applyEvent ev) := by
  unfold State.applyEvent
  split
  · split
    · exact Updates.resync (.refl _) _
    · exact .of_core_eq rfl
  · exact .refl _

theorem foldl_applyEvent_updates (evs : List Event) (s : State) : Updates s (evs.foldl State.applyEvent s) := by
  induction evs generalizing s with
  | nil => exact .refl _
  | cons e evs ih => exact (applyEvent_updates s e).trans (ih _)

theorem drainEvents_updates (s : State) : Updates s s.drainEvents :=
  ((Updates.refl s).tail .drain).trans (foldl_applyEvent_updates _ _)

/-! ### The state machine -/

theorem track_updates (s : State) (b : Option Nat) (x : List Sample) : Updates s (s.track b x) := by
  unfold State.track
  split
  · exact ((Updates.refl s).store .pre _ x).registers rfl
  · exact ((Updates.refl s).store .pre 0 x).registers rfl

theorem estimate_updates {s t : State} (h : estimate s = .ok t) : Updates s t := by
  obtain ⟨-, rfl⟩ | ⟨-, u, v, hu, hv, rfl⟩ := (estimate_ok s t).1 h
  · exact .refl _
  · exact ((runCfoest_updates hu).trans (runStoest_updates hv)).registers rfl

theorem correlate_updates {x : List Sample} {ref : RefSel} {s : State} {bs : Option Nat × State}
    (h : correlate x ref s = .ok bs) : Updates s bs.2 := by
  obtain ⟨-, rfl⟩ := (correlate_ok _ _ _ _).1 h
  exact (Updates.refl s).setCorrelator _

theorem estimateAndCorrelate_updates {ref : RefSel} {s : State} {bs : Option Nat × State}
    (h : estimateAndCorrelate ref s = .ok bs) : Updates s bs.2 := by
  obtain ⟨t, z, ht, -, hc⟩ := (estimateAndCorrelate_ok ref s bs).1 h
  exact (estimate_updates ht).trans (correlate_updates hc)

theorem stepDetect_updates {s t : State} (h : stepDetect s = .ok t) : Updates s t := by
  obtain ⟨b, u, -, hc, rfl⟩ := (stepDetect_ok s t).1 h
  have correlated : Updates s u := correlate_updates hc
  have tracked := correlated.trans (track_updates u b ((s.mem .sym).values (indices s.n)))
  dsimp only
  split
  · exact tracked.registers rfl
  · exact tracked.consume _

theorem stepNetId1_updates {s t : State} (h : stepNetId1 s = .ok t) : Updates s t := by
  obtain ⟨b, u, hu, rfl⟩ := (stepNetId1_ok s t).1 h
  have consumed := (estimateAndCorrelate_updates hu).consume s.n
  dsimp only
  split
  · exact consumed
  · split
    · exact consumed.registers rfl
    · exact consumed.resync _

theorem stepNetId2_updates {s t : State} (h : stepNetId2 s = .ok t) : Updates s t := by
  obtain ⟨b, u, hu, rfl⟩ := (stepNetId2_ok s t).1 h
  have correlated := estimateAndCorrelate_updates hu
  split
  · exact correlated.registers rfl
  · exact (correlated.consume _).resync _

theorem stepDownchirp1_updates {s t : State} (h : stepDownchirp1 s = .ok t) : Updates s t := by
  obtain ⟨u, hu, rfl⟩ := (stepDownchirp1_ok s t).1 h
  exact (estimate_updates hu).registers rfl

theorem stepDownchirp2_updates {s t : State} (h : stepDownchirp2 s = .ok t) : Updates s t := by
  obtain ⟨b, u, hu, rfl⟩ := (stepDownchirp2_ok s t).1 h
  exact (estimateAndCorrelate_updates hu).registers rfl

/-- The integer offset and the tag that announces it (rule R199). -/
def State.tagFrame (t : State) (c : Int) : State :=
  { t with acq := { t.acq with cfoInt := intWord c } }.emitTag (intWord c)

/-- `FRAC_CFO_CORREC` begins (rule R199). -/
def State.startFrame (t : State) (hdrSyms : BitVec 16) : State :=
  { t with acq := { t.acq with state := .fracCfoCorrec, symCnt := 0, symbNumb := hdrSyms.setWidth 32 } }

/-- `QUARTER_DOWN` past its prologue (rule R199): without a down-chirp result a resynchronisation, else the frame. -/
def State.endSync (t : State) (n : Nat) (hdrSyms : BitVec 16) : State :=
  if t.acq.downVal = nosymWord then (t.consume n).resync .noDown
  else
    let c := integerCfo t.acq.downVal.toInt n
    ((t.tagFrame c).generate.consume ((n / 4 : Nat) + c)).startFrame hdrSyms

theorem stepQuarterDown_ok (s t : State) :
    stepQuarterDown s = .ok t ↔ ∃ u, estimate s = .ok u ∧ t = u.endSync s.n s.cfg.hdrSyms := by
  unfold stepQuarterDown
  simp only [bind_ok]
  constructor
  · rintro ⟨u, hu, h⟩; exact ⟨u, hu, by cases h; rfl⟩
  · rintro ⟨u, hu, rfl⟩; exact ⟨u, hu, rfl⟩

theorem Updates.tagFrame {s t : State} (h : Updates s t) (c : Int) : Updates s (t.tagFrame c) := h.registers rfl

theorem Updates.startFrame {s t : State} (h : Updates s t) (hdrSyms : BitVec 16) : Updates s (t.startFrame hdrSyms) :=
  h.registers rfl

theorem endSync_updates (s : State) (n : Nat) (hdrSyms : BitVec 16) : Updates s (s.endSync n hdrSyms) := by
  unfold State.endSync
  split
  · exact ((Updates.refl s).consume _).resync _
  · exact (((Updates.refl s).tagFrame _).generate.consume _).startFrame hdrSyms

theorem stepQuarterDown_updates {s t : State} (h : stepQuarterDown s = .ok t) : Updates s t := by
  obtain ⟨u, hu, rfl⟩ := (stepQuarterDown_ok s t).1 h
  exact (estimate_updates hu).trans (endSync_updates u _ _)

theorem noProgress_updates (s : State) : Updates s s.noProgress :=
  .of_core_eq rfl

theorem stepFrac_updates {s t : State} (h : stepFrac s = .ok t) : Updates s t := by
  unfold stepFrac at h
  split at h
  · obtain ⟨z, -, rfl⟩ := (stepEmit_ok s t).1 h
    exact (((Updates.refl s).store .outbuf 0 z).consume s.n).registers rfl
  · exact Except.ok.inj h ▸ (noProgress_updates s).resync _

/-- The cases of the state-selected part of a step (rule R94). -/
theorem stepCase_cases {P : Prop} {s t : State} (h : stepCase s = .ok t)
    (detect : s.acq.state = .detect → stepDetect s = .ok t → P)
    (netId1 : s.acq.state = .sync → s.acq.syncPos = .netId1 → stepNetId1 s = .ok t → P)
    (netId2 : s.acq.state = .sync → s.acq.syncPos = .netId2 → stepNetId2 s = .ok t → P)
    (downchirp1 : s.acq.state = .sync → s.acq.syncPos = .downchirp1 → stepDownchirp1 s = .ok t → P)
    (downchirp2 : s.acq.state = .sync → s.acq.syncPos = .downchirp2 → stepDownchirp2 s = .ok t → P)
    (quarterDown : s.acq.state = .sync → s.acq.syncPos = .quarterDown → stepQuarterDown s = .ok t → P)
    (frac : s.acq.state = .fracCfoCorrec → stepFrac s = .ok t → P) : P := by
  unfold stepCase at h
  split at h
  · next hstate => exact detect hstate h
  · next hstate =>
    split at h
    · next hpos => exact netId1 hstate hpos h
    · next hpos => exact netId2 hstate hpos h
    · next hpos => exact downchirp1 hstate hpos h
    · next hpos => exact downchirp2 hstate hpos h
    · next hpos => exact quarterDown hstate hpos h
  · next hstate => exact frac hstate h

theorem stepCase_updates {s t : State} (h : stepCase s = .ok t) : Updates s t :=
  stepCase_cases h (fun _ => stepDetect_updates) (fun _ _ => stepNetId1_updates) (fun _ _ => stepNetId2_updates)
    (fun _ _ => stepDownchirp1_updates) (fun _ _ => stepDownchirp2_updates) (fun _ _ => stepQuarterDown_updates)
    (fun _ => stepFrac_updates)

/-- A step of the state machine: updates, and then the counters. -/
theorem fsmStep_updates {s t : State} (h : fsmStep s = .ok t) : ∃ u, Updates s u ∧ t = u.countUp := by
  obtain ⟨u, hu, rfl⟩ := (fsmStep_ok s t).1 h
  have cleared : Updates s s.clearReport := .of_core_eq rfl
  exact ⟨u, cleared.trans (stepCase_updates hu), rfl⟩

/-! ### Whole bodies -/

/-- An invocation of `WORK`: no progress, or updates and then the counters. -/
theorem invoke_updates {s t : State} (h : invoke s = .ok t) :
    (∃ u, Updates s u ∧ t = u.noProgress) ∨ ∃ u, Updates s u ∧ t = u.countUp := by
  obtain ⟨-, rfl⟩ | ⟨-, u, hu, ht⟩ := (invoke_ok s t).1 h
  · exact .inl ⟨_, drainEvents_updates s, rfl⟩
  · obtain ⟨v, hv, rfl⟩ := fsmStep_updates ht
    have tapped := (drainEvents_updates s).registers (u := s.drainEvents.setTap) rfl
    exact .inr ⟨v, (tapped.trans (runDowns_updates hu)).trans hv, rfl⟩

theorem runUnit_updates {i : Instr} {s t : State} (h : runUnit i s = .ok t) :
    ∃ u, Updates s u ∧ (t = u ∨ t = u.countUp) := by
  cases i with
  | gen => exact ⟨t, Except.ok.inj h ▸ Updates.generate (.refl s), .inl rfl⟩
  | demod ref src =>
    obtain ⟨be, rfl⟩ := runUnit_demod_ok ref src s t h
    exact ⟨_, (Updates.refl s).setCorrelator be, .inl rfl⟩
  | interp => exact ⟨t, Except.ok.inj h ▸ .of_core_eq rfl, .inl rfl⟩
  | cfoest => exact ⟨t, runCfoest_updates h, .inl rfl⟩
  | cfoalt =>
    obtain ⟨r, rfl⟩ := runUnit_cfoalt_ok s t h
    exact ⟨s.setAlt r, .of_core_eq rfl, .inl rfl⟩
  | stoest => exact ⟨t, runStoest_updates h, .inl rfl⟩
  | fdly => exact ⟨t, Except.ok.inj h ▸ .of_core_eq rfl, .inl rfl⟩
  | downs => exact ⟨t, runDowns_updates h, .inl rfl⟩
  | fsmstep =>
    obtain ⟨u, hu, rfl⟩ := fsmStep_updates h
    exact ⟨u, hu, .inr rfl⟩
  | drain => exact ⟨t, Except.ok.inj h ▸ drainEvents_updates s, .inl rfl⟩
  | _ => exact ⟨t, Except.ok.inj h ▸ .refl s, .inl rfl⟩

/-- What every update and the counters keep, the bodies of `WORK` and of the unit commands keep. -/
theorem body_keeps {P : State → Prop} (update : ∀ a b, Update a b → P a → P b) (countUp : ∀ a, P a → P a.countUp) {s t : State}
    (h : invoke s = .ok t ∨ ∃ i, runUnit i s = .ok t) (hs : P s) : P t := by
  obtain h | ⟨i, h⟩ := h
  · obtain ⟨u, hu, rfl⟩ | ⟨u, hu, rfl⟩ := invoke_updates h
    · exact (hu.trans (noProgress_updates u)).keeps update hs
    · exact countUp u (hu.keeps update hs)
  · obtain ⟨u, hu, rfl | rfl⟩ := runUnit_updates h
    · exact hu.keeps update hs
    · exact countUp u (hu.keeps update hs)

end Sys2Proof.Machine
end

section
/-! The statements that only ask what kinds of update a step is made of: the canonical form of the memories, mode and
configuration, and the sample counts. -/

namespace Sys2Proof.Machine

/-! ### Canonical form (O47) -/

theorem CanonicalMemories.of_mems_eq {s t : State} (h : CanonicalMemories s) (e : t.mems = s.mems) : CanonicalMemories t :=
  fun sp => by rw [State.mem_congr e]; exact h sp

theorem CanonicalMemories.setMem {s : State} (h : CanonicalMemories s) (sp : Space) (off : Nat) (ws : List Word) :
    CanonicalMemories (s.setMem sp ((s.mem sp).store off ws)) := by
  intro sp'
  rw [State.setMem_mem]
  split
  · exact Mem.store_wf _ _ _ (h sp)
  · exact h sp'

theorem CanonicalMemories.update {s t : State} (u : Update s t) (h : CanonicalMemories s) : CanonicalMemories t := by
  cases u with
  | registers e => exact h.of_mems_eq (congrArg Core.mems e)
  | store sp i xs => exact h.setMem sp _ _
  | foldCfo | foldSto | neutral | drain => exact h.of_mems_eq rfl

theorem canonicalMemories_reset : CanonicalMemories State.reset := by
  intro sp
  cases sp <;> exact List.Pairwise.nil

theorem construct_updates (s : State) (m : Mode) :
    ∃ u, Updates s u ∧ (s.construct m).mems = u.mems ∧ (s.construct m).acq = u.acq :=
  ⟨_, ((Updates.generate (.refl s)).store .corr 0 (List.replicate s.n s.nums.cone)).tail .neutral, rfl, rfl⟩

theorem writeReg_mems (s : State) (r : Reg) (w : Word) : (writeReg s r w).mems = s.mems := by cases r <;> rfl

theorem canonicalMemories_kept : StepKeeps CanonicalMemories where
  bus _ _ h := h.of_mems_eq rfl
  busData _ _ h := h.of_mems_eq rfl
  err _ _ h := h.of_mems_eq rfl
  register s r w _ h := h.of_mems_eq (writeReg_mems s r w)
  sample _ sp off w _ h := h.setMem sp off [w]
  reset _ _ := canonicalMemories_reset.of_mems_eq rfl
  start s m _ _ h := by
    obtain ⟨u, hu, mems, -⟩ := construct_updates s m
    exact (hu.keeps (fun _ _ => .update) h).of_mems_eq mems
  frameInfo _ _ _ h := h.of_mems_eq rfl
  work _ _ _ run h := body_keeps (fun _ _ => .update) (fun _ h => h.of_mems_eq rfl) (.inl run) h
  unit i _ _ _ _ run h := body_keeps (fun _ _ => .update) (fun _ h => h.of_mems_eq rfl) (.inr ⟨i, run⟩) h

/-- Settles O47: memories change by stores only, and a store keeps the canonical form. -/
theorem stepsKeepMemoriesCanonical : Obligations.StepsKeepMemoriesCanonical :=
  fun _ _ hs h => canonicalMemories_kept.step hs h

/-! ### Mode and configuration (O15) -/

/-- The block runs in the mode and with the configuration of `s`. -/
def SameMode (s t : State) : Prop := t.started = s.started ∧ t.test = s.test ∧ t.cfg = s.cfg

theorem SameMode.update {s a b : State} (u : Update a b) (h : SameMode s a) : SameMode s b := by
  obtain ⟨started, test, cfg⟩ := h
  cases u with
  | registers e => exact ⟨(congrArg Core.started e).trans started, (congrArg Core.test e).trans test, (congrArg Core.cfg e).trans cfg⟩
  | store | foldCfo | foldSto | neutral | drain => exact ⟨started, test, cfg⟩

theorem body_sameMode {s t : State} (h : invoke s = .ok t ∨ ∃ i, runUnit i s = .ok t) : SameMode s t :=
  body_keeps (fun _ _ => .update) (fun _ h => h) h ⟨rfl, rfl, rfl⟩

theorem Executed.sameMode {i : Instr} {s t : State} (h : Executed s i t) (hs : s.started = true) (hi : i ≠ .reset) :
    SameMode s t := by
  cases h with
  | refused | nop | frameInfo => exact ⟨rfl, rfl, rfl⟩
  | reset => exact absurd rfl hi
  | start m h => rw [hs] at h; cases h
  | work u _ run => exact body_sameMode (t := u) (.inl run)
  | unit i u _ _ run => exact body_sameMode (t := u) (.inr ⟨i, run⟩)

theorem executed_reset {s t : State} (h : Executed s .reset t) :
    SameMode s t ∨ (t.started = false ∧ t.test = false ∧ t.cfg = Cfg.reset) := by
  cases h with
  | refused => exact .inl ⟨rfl, rfl, rfl⟩
  | reset => exact .inr ⟨rfl, rfl, rfl⟩
  | unit i u _ _ run => exact .inl (body_sameMode (t := u) (.inr ⟨.reset, run⟩))

theorem writeReg_sameMode (s : State) (r : Reg) (w : Word) (hs : s.started = true) (h : r.access.admits s) :
    SameMode s (writeReg s r w) := by
  cases r <;> first | exact ⟨rfl, rfl, rfl⟩ | simp [Reg.access, Access.admits, hs] at h

/-- Bits [31:16] of a word, its argument and its opcode determine it (rule R90). -/
theorem word_ext {v w : Word} (high : v.extractLsb' 16 16 = w.extractLsb' 16 16) (arg : argField v = argField w)
    (op : opField v = opField w) : v = w := by
  have high := congrArg BitVec.toNat high
  have arg := congrArg BitVec.toNat arg
  have op := congrArg BitVec.toNat op
  simp only [argField, opField, BitVec.extractLsb'_toNat, Nat.shiftRight_eq_div_pow] at high arg op
  apply BitVec.eq_of_toNat_eq
  omega

theorem decodePlain_ok {arg : BitVec 8} {i j : Instr} (h : decodePlain arg i = .ok j) : arg = 0 ∧ i = j := by
  unfold decodePlain at h
  split at h
  · next harg => exact ⟨harg, Except.ok.inj h⟩
  · cases h

theorem decode_reset {w : Word} (h : decode w = .ok .reset) : w = 0x00000001 := by
  unfold decode at h
  split at h
  case isFalse => cases h
  next high =>
  unfold decodeOp at h
  split at h
  case h_2 op =>
    obtain ⟨arg, -⟩ := decodePlain_ok h
    exact word_ext high arg (BitVec.eq_of_toNat_eq op)
  case h_3 => unfold decodeStart at h; split at h <;> cases h
  case h_7 => unfold decodeDemod at h; split at h <;> cases h
  case h_16 => cases h
  all_goals exact absurd (decodePlain_ok h).2 nofun

/-- Settles O15: of the updates a step can end in, only `START` and `RESET` touch mode and configuration, and a started block
refuses `START`. -/
theorem modeAndConfigurationChangeOnlyByReset : Obligations.ModeAndConfigurationChangeOnlyByReset := by
  intro s t h hs
  have kept : SameMode s t → t.started = true ∧ t.test = s.test ∧ t.cfg = s.cfg := fun ⟨a, b, c⟩ => ⟨a.trans hs, b, c⟩
  obtain ⟨-, rfl⟩ | ⟨a, rest, w, -, -, rfl⟩ | ⟨a, w, rest, hbus, h⟩ := (step_next s t).1 h
  · exact .inl ⟨hs, rfl, rfl⟩
  · exact .inl ⟨hs, rfl, rfl⟩
  · cases busWrite_next a w _ t h with
    | refused => exact .inl ⟨hs, rfl, rfl⟩
    | register r hr => exact .inl (kept (writeReg_sameMode _ r w hs hr))
    | sample => exact .inl ⟨hs, rfl, rfl⟩
    | command i _ ha hw h =>
      by_cases hi : i = .reset
      · subst hi
        obtain same | reset := executed_reset h
        · exact .inl (kept same)
        · exact .inr ⟨by rw [hbus, ha, decode_reset hw]; rfl, reset⟩
      · exact .inl (kept (h.sameMode hs hi))

/-! ### The sample counts (O54) -/

/-- The sample counts are those of `s`. -/
def SameCounts (s t : State) : Prop := t.count.inCount = s.count.inCount ∧ t.count.outCount = s.count.outCount

theorem SameCounts.update {s a b : State} (u : Update a b) (h : SameCounts s a) : SameCounts s b := by
  cases u with
  | registers e => exact ⟨(congrArg Core.inCount e).trans h.1, (congrArg Core.outCount e).trans h.2⟩
  | store | foldCfo | foldSto | neutral | drain => exact h

theorem Updates.sameCounts {s t : State} (h : Updates s t) : SameCounts s t := h.keeps (fun _ _ => .update) ⟨rfl, rfl⟩

theorem toNat_add_setWidth (c : BitVec 64) (w : Word) : (c + w.setWidth 64).toNat = (c.toNat + w.toNat) % 2 ^ 64 := by
  rw [BitVec.toNat_add, BitVec.toNat_setWidth]; omega

/-- Settles O54: updates leave the counts alone, and the step ends by adding what it reports; without progress that is 0. -/
theorem countersGrowByWhatIsReported : Obligations.CountersGrowByWhatIsReported := by
  intro s t hs h
  obtain ⟨-, u, hu, rfl⟩ | ⟨hs', -⟩ := (hostCommand_next invoke s t).1 h
  · obtain ⟨v, hv, rfl⟩ | ⟨v, hv, rfl⟩ := invoke_updates hu <;> obtain ⟨inCount, outCount⟩ := hv.sameCounts
    · have inLt := s.count.inCount.isLt
      have outLt := s.count.outCount.isLt
      show v.count.inCount.toNat = (_ + 0) % _ ∧ v.count.outCount.toNat = (_ + 0) % _
      rw [inCount, outCount, Nat.add_zero, Nat.add_zero, Nat.mod_eq_of_lt inLt, Nat.mod_eq_of_lt outLt]
      exact ⟨rfl, rfl⟩
    · rw [← inCount, ← outCount]
      exact ⟨toNat_add_setWidth _ _, toNat_add_setWidth _ _⟩
  · rw [hs] at hs'; cases hs'

end Sys2Proof.Machine
end

section
/-! Rounding to binary32 (rule R61), in units of `2^-149`. Everything rests on one equation: the magnitude of the word a
magnitude `num / den` rounds to is the significand nearest to it, times the spacing of its binade. -/

namespace Sys2Proof.Machine.F32

/-! ### The fields of a word -/

theorem expo_eq (w : Word) : expo w = (w.extractLsb' 23 8).toNat := by
  rw [BitVec.extractLsb'_toNat, Nat.shiftRight_eq_div_pow]; rfl

theorem frac_eq (w : Word) : frac w = (w.extractLsb' 0 23).toNat := by
  rw [BitVec.extractLsb'_toNat]; rfl

@[simp] theorem expo_neg (w : Word) : expo (neg w) = expo w := by
  rw [expo_eq, expo_eq, neg, BitVec.extractLsb'_xor]; simp

@[simp] theorem frac_neg (w : Word) : frac (neg w) = frac w := by
  rw [frac_eq, frac_eq, neg, BitVec.extractLsb'_xor]; simp

@[simp] theorem sign_neg (w : Word) : sign (neg w) = !sign w := by
  rw [sign, sign, neg, BitVec.msb_xor, show (0x80000000 : Word).msb = true by decide, Bool.xor_true]

@[simp] theorem mag_neg (w : Word) : mag (neg w) = mag w := by simp [mag]

@[simp] theorem isFinite_neg (w : Word) : isFinite (neg w) = isFinite w := by simp [isFinite]

@[simp] theorem isNan_neg (w : Word) : isNan (neg w) = isNan w := by simp [isNan]

@[simp] theorem isInf_neg (w : Word) : isInf (neg w) = isInf w := by simp [isInf]

@[simp] theorem units_neg (w : Word) : units (neg w) = -units w := by
  cases h : sign w <;> simp [units, h]

theorem expo_lt (w : Word) : expo w < 256 := Nat.mod_lt _ (by decide)

theorem frac_lt (w : Word) : frac w < 2 ^ 23 := Nat.mod_lt _ (by decide)

theorem isNan_of_isFinite {w : Word} (h : isFinite w = true) : isNan w = false := by
  simp [isFinite] at h; simp [isNan, h]

theorem isInf_of_isFinite {w : Word} (h : isFinite w = true) : isInf w = false := by
  simp [isFinite] at h; simp [isInf, h]

theorem isInf_of_not_isFinite {w : Word} (h : isFinite w = false) (hn : isNan w = false) : isInf w = true := by
  simp [isFinite] at h; simpa [isNan, isInf, h] using hn

@[simp] theorem isFinite_nan (a b : Word) : isFinite (nan a b) = false := by
  have hexp : expo (nan a b) = 255 := by
    rw [expo_eq, nan, BitVec.extractLsb'_or, show (0x7FC00000 : Word).extractLsb' 23 8 = BitVec.allOnes 8 by decide,
      BitVec.allOnes_or]
    rfl
  simp [isFinite, hexp]

@[simp] theorem isNan_nan (a b : Word) : isNan (nan a b) = true := by
  have hexp : isFinite (nan a b) = false := isFinite_nan a b
  have hfrac : frac (nan a b) ≠ 0 := by
    rw [frac_eq]
    intro h
    have bit : ((nan a b).extractLsb' 0 23).getLsbD 22 = true := by simp [nan]
    rw [BitVec.eq_of_toNat_eq (y := 0) h] at bit
    cases bit
  simp [isFinite] at hexp
  simp [isNan, hexp, hfrac]

/-! ### The magnitude of a word -/

theorem units_natAbs (w : Word) : (units w).natAbs = mag w := by
  unfold units; split <;> simp

theorem mag_eq (w : Word) : ∃ m, m < 2 ^ 24 ∧ mag w = m * 2 ^ (expo w - 1) := by
  have hf := frac_lt w
  unfold mag
  split
  · next h => exact ⟨frac w, by omega, by simp [h]⟩
  · exact ⟨2 ^ 23 + frac w, by omega, rfl⟩

/-- A magnitude from `2^(24+j)` on is a whole multiple of `2^(j+1)`, the spacing of its binade. -/
theorem dvd_mag {w : Word} {j : Nat} (h : 2 ^ (24 + j) ≤ mag w) : 2 ^ (j + 1) ∣ mag w := by
  obtain ⟨m, hm, hmag⟩ := mag_eq w
  have hexp : j + 1 ≤ expo w - 1 := by
    by_contra hlt
    have hpow : 2 ^ (expo w - 1) ≤ 2 ^ j := Nat.pow_le_pow_right (by decide) (by omega)
    have : mag w < 2 ^ 24 * 2 ^ j := by rw [hmag]; exact Nat.mul_lt_mul_of_lt_of_le hm hpow (by positivity)
    rw [← Nat.pow_add] at this
    omega
  rw [hmag]
  exact Dvd.dvd.mul_left (Nat.pow_dvd_pow 2 hexp) m

/-- A word below `2^(24+j)` is at most the greatest significand of the binade below it. -/
theorem mag_le_of_lt {w : Word} {j : Nat} (h : mag w < 2 ^ (24 + j)) : mag w ≤ (2 ^ 24 - 1) * 2 ^ j := by
  obtain ⟨m, hm, hmag⟩ := mag_eq w
  rcases le_or_gt (expo w - 1) j with hle | hgt
  · rw [hmag]
    exact Nat.mul_le_mul (by omega) (Nat.pow_le_pow_right (by decide) hle)
  · obtain ⟨i, hi⟩ := Nat.exists_eq_add_of_lt hgt
    have hsplit : mag w = m * 2 ^ (i + 1) * 2 ^ j := by
      rw [hmag, Nat.mul_assoc, ← Nat.pow_add]; congr 2; omega
    have hlt : m * 2 ^ (i + 1) < 2 ^ 24 := by
      rw [hsplit, Nat.pow_add 2 24] at h; exact Nat.lt_of_mul_lt_mul_right h
    rw [hsplit]
    exact Nat.mul_le_mul_right _ (by omega)

/-- The word `k` binades of `2^23` words and `d` words further on, `d` being a significand of that binade. -/
theorem fields_ofNat_binade {k d : Nat} (hk : k = 0 ∨ 2 ^ 23 ≤ d) (hd : d ≤ 2 ^ 24) (hlt : k * 2 ^ 23 + d < 0x7F800000) :
    mag (BitVec.ofNat 32 (k * 2 ^ 23 + d)) = d * 2 ^ k ∧ isFinite (BitVec.ofNat 32 (k * 2 ^ 23 + d)) = true := by
  have toNat : (BitVec.ofNat 32 (k * 2 ^ 23 + d)).toNat = k * 2 ^ 23 + d := by
    rw [BitVec.toNat_ofNat, Nat.mod_eq_of_lt (by omega)]
  have hexp : expo (BitVec.ofNat 32 (k * 2 ^ 23 + d)) = k + d / 2 ^ 23 := by
    rw [expo, toNat, Nat.mul_comm k, Nat.mul_add_div (by decide), Nat.mod_eq_of_lt]; omega
  have hfrac : frac (BitVec.ofNat 32 (k * 2 ^ 23 + d)) = d % 2 ^ 23 := by
    rw [frac, toNat, Nat.mul_comm k, Nat.mul_add_mod]
  refine ⟨?_, by rw [isFinite, hexp]; simp; omega⟩
  rw [mag, hexp, hfrac]
  rcases lt_or_ge d (2 ^ 23) with hsub | hnormal
  · obtain rfl : k = 0 := by omega
    rw [if_pos (by omega), Nat.mod_eq_of_lt hsub, Nat.pow_zero, Nat.mul_one]
  · rw [if_neg (by omega)]
    rcases eq_or_lt_of_le hd with rfl | hlt'
    · rw [show k + 2 ^ 24 / 2 ^ 23 - 1 = k + 1 by omega, Nat.pow_succ]; omega
    · rw [show k + d / 2 ^ 23 - 1 = k by omega, show 2 ^ 23 + d % 2 ^ 23 = d by omega]

/-! ### Rounding -/

/-- The nearest whole number is at most half a denominator away. -/
theorem divEven_near {num den : Nat} (h : 0 < den) :
    2 * (divEven num den * den) ≤ 2 * num + den ∧ 2 * num ≤ 2 * (divEven num den * den) + den := by
  have hdiv := Nat.div_add_mod num den
  have hmod := Nat.mod_lt num h
  rw [Nat.mul_comm] at hdiv
  unfold divEven
  dsimp only
  split
  · constructor <;> omega
  · split
    · rw [Nat.add_mul]; constructor <;> omega
    · obtain hq | hq := Nat.mod_two_eq_zero_or_one (num / den) <;> rw [hq, Nat.add_mul] <;> constructor <;> omega

theorem divEven_le {num den c : Nat} (h : 0 < den) (hc : num ≤ c * den) : divEven num den ≤ c := by
  have near := (divEven_near (num := num) h).1
  by_contra hlt
  have : (c + 1) * den ≤ divEven num den * den := Nat.mul_le_mul_right _ (by omega)
  rw [Nat.add_mul] at this
  omega

theorem le_divEven {num den c : Nat} (h : 0 < den) (hc : c * den ≤ num) : c ≤ divEven num den := by
  have near := (divEven_near (num := num) h).2
  by_contra hlt
  have : (divEven num den + 1) * den ≤ c * den := Nat.mul_le_mul_right _ (by omega)
  rw [Nat.add_mul] at this
  omega

/-- The exponent of the spacing of the binade of a magnitude. -/
def spacing (num den : Nat) : Nat := (num / den).log2 - 23

theorem pow_spacing_le {num den : Nat} (h : spacing num den ≠ 0) : 2 ^ 23 * 2 ^ spacing num den ≤ num / den := by
  have hlog : spacing num den + 23 = (num / den).log2 := by unfold spacing at *; omega
  have hne : num / den ≠ 0 := by
    intro h0; rw [h0, Nat.log2_zero] at hlog; omega
  rw [← Nat.pow_add, Nat.add_comm 23, hlog]
  exact Nat.log2_self_le hne

theorem lt_pow_spacing (num den : Nat) : num / den < 2 ^ 24 * 2 ^ spacing num den := by
  have hlt : num / den < 2 ^ ((num / den).log2 + 1) := Nat.lt_log2_self
  rw [← Nat.pow_add]
  exact hlt.trans_le (Nat.pow_le_pow_right (by decide) (by unfold spacing; omega))

theorem spacing_lt {num den j : Nat} (h : num / den < 2 ^ (24 + j)) : spacing num den ≤ j := by
  by_contra hlt
  have hle := pow_spacing_le (num := num) (den := den) (by omega)
  have hpow : 2 ^ (j + 1) ≤ 2 ^ spacing num den := Nat.pow_le_pow_right (by decide) (by omega)
  have : 2 ^ (24 + j) = 2 ^ 23 * 2 ^ (j + 1) := by rw [← Nat.pow_add]; congr 1; omega
  omega

/-- The rounded significand. -/
def significand (num den : Nat) : Nat := divEven num (den * 2 ^ spacing num den)

theorem significand_le {num den : Nat} (h : 0 < den) : significand num den ≤ 2 ^ 24 := by
  refine divEven_le (by positivity) ?_
  have hlt := lt_pow_spacing num den
  rw [Nat.div_lt_iff_lt_mul h] at hlt
  calc num ≤ 2 ^ 24 * 2 ^ spacing num den * den := hlt.le
    _ = 2 ^ 24 * (den * 2 ^ spacing num den) := by rw [Nat.mul_assoc, Nat.mul_comm den]

theorem le_significand {num den : Nat} (h : 0 < den) (hk : spacing num den ≠ 0) : 2 ^ 23 ≤ significand num den := by
  refine le_divEven (by positivity) ?_
  have hle := pow_spacing_le hk
  rw [Nat.le_div_iff_mul_le h] at hle
  calc 2 ^ 23 * (den * 2 ^ spacing num den) = 2 ^ 23 * 2 ^ spacing num den * den := by rw [Nat.mul_assoc, Nat.mul_comm den]
    _ ≤ num := hle

/-- A magnitude that does not round past the greatest number. -/
def InRange (num den : Nat) : Prop := spacing num den * 2 ^ 23 + significand num den < 0x7F800000

/-- Below the last binade no rounding leaves the range. -/
theorem inRange_of_spacing_le {num den : Nat} (h : 0 < den) (hk : spacing num den ≤ 252) : InRange num den := by
  have hd := significand_le (num := num) h
  unfold InRange
  omega

theorem fields_roundMag {num den : Nat} (h : 0 < den) (hin : InRange num den) :
    mag (BitVec.ofNat 32 (roundMag num den)) = significand num den * 2 ^ spacing num den ∧
      isFinite (BitVec.ofNat 32 (roundMag num den)) = true := by
  have hround : roundMag num den = spacing num den * 2 ^ 23 + significand num den := Nat.min_eq_left hin.le
  rw [hround]
  refine fields_ofNat_binade ?_ (significand_le h) hin
  by_cases hk0 : spacing num den = 0
  · exact .inl hk0
  · exact .inr (le_significand h hk0)

theorem roundMag_lt (num den : Nat) : roundMag num den < 2 ^ 31 :=
  (Nat.min_le_right _ _).trans_lt (by decide)

theorem sign_ofNat {m : Nat} (h : m < 2 ^ 31) : sign (BitVec.ofNat 32 m) = false := by
  rw [sign, BitVec.msb_eq_decide, BitVec.toNat_ofNat, Nat.mod_eq_of_lt (by omega)]
  exact decide_eq_false (by omega)

theorem units_withSign (b : Bool) {m : Nat} (h : m < 2 ^ 31) :
    units (withSign b m) = if b then -(mag (BitVec.ofNat 32 m) : Int) else mag (BitVec.ofNat 32 m) := by
  cases b <;> simp [withSign, units, sign_ofNat h]

theorem isFinite_withSign (b : Bool) (m : Nat) : isFinite (withSign b m) = isFinite (BitVec.ofNat 32 m) := by
  cases b <;> simp [withSign]

/-- A signed value rounds by magnitude, and the sign stays. -/
theorem units_roundSigned (b : Bool) (v : Int) (den : Nat) :
    units (roundSigned b v den) =
      if v < 0 then -(mag (BitVec.ofNat 32 (roundMag v.natAbs den)) : Int)
      else if v = 0 then 0 else mag (BitVec.ofNat 32 (roundMag v.natAbs den)) := by
  unfold roundSigned
  split
  · next h => subst h; show units (withSign b 0) = 0; cases b <;> decide
  · next h =>
    rw [units_withSign _ (roundMag_lt _ _)]
    by_cases hv : v < 0 <;> simp [hv]

theorem isFinite_roundSigned (b : Bool) {v : Int} {den : Nat} (h : 0 < den) (hin : InRange v.natAbs den) :
    isFinite (roundSigned b v den) = true := by
  unfold roundSigned
  split
  · cases b <;> decide
  · rw [isFinite_withSign]; exact (fields_roundMag h hin).2

/-- Rounding does not pass a bound that is a whole multiple of the spacing. -/
theorem mag_roundMag_le {num den c : Nat} (h : 0 < den) (hin : InRange num den) (hc : num ≤ c * den)
    (hdvd : 2 ^ spacing num den ∣ c) : mag (BitVec.ofNat 32 (roundMag num den)) ≤ c := by
  obtain ⟨q, rfl⟩ := hdvd
  rw [(fields_roundMag h hin).1, Nat.mul_comm (2 ^ _)]
  refine Nat.mul_le_mul_right _ (divEven_le (by positivity) ?_)
  calc num ≤ 2 ^ spacing num den * q * den := hc
    _ = q * (den * 2 ^ spacing num den) := by ring

/-- A whole multiple of the spacing is its own significand. -/
theorem significand_mul_pow {q : Nat} {num : Nat} (h : num = q * 2 ^ spacing num 1) : significand num 1 = q := by
  refine le_antisymm (divEven_le (by positivity) ?_) (le_divEven (by positivity) ?_) <;>
    · rw [Nat.one_mul]; omega

/-- A whole multiple `m * 2^j` of the units with a significand `m` of 24 bits is left as it is. -/
theorem units_roundSigned_of_exact (b : Bool) {v : Int} {m j : Nat} (hm : m < 2 ^ 24) (hj : j ≤ 253)
    (hv : v.natAbs = m * 2 ^ j) :
    units (roundSigned b v 1) = v ∧ isFinite (roundSigned b v 1) = true := by
  have hk : spacing v.natAbs 1 ≤ j := by
    refine spacing_lt ?_
    rw [Nat.div_one, hv, Nat.pow_add]
    exact Nat.mul_lt_mul_of_pos_right hm (by positivity)
  obtain ⟨i, hi⟩ := Nat.exists_eq_add_of_le' hk
  have hnum : v.natAbs = m * 2 ^ i * 2 ^ spacing v.natAbs 1 := by rw [Nat.mul_assoc, ← Nat.pow_add, ← hi, hv]
  have hsig := significand_mul_pow hnum
  have hin : InRange v.natAbs 1 := by
    rcases Nat.lt_or_ge (spacing v.natAbs 1) 253 with hlt | hge
    · exact inRange_of_spacing_le Nat.one_pos (by omega)
    · obtain rfl : i = 0 := by omega
      unfold InRange
      omega
  have hmag : mag (BitVec.ofNat 32 (roundMag v.natAbs 1)) = v.natAbs := by
    rw [(fields_roundMag Nat.one_pos hin).1, hsig, ← hnum]
  refine ⟨?_, isFinite_roundSigned b Nat.one_pos hin⟩
  rw [units_roundSigned, hmag]
  split
  · omega
  · split <;> omega

/-! ### Addition and subtraction of numbers -/

theorem add_eq {a b : Word} (ha : isFinite a = true) (hb : isFinite b = true) :
    add a b = roundSigned (sign a && sign b) (units a + units b) 1 := by
  simp [add, isNan_of_isFinite ha, isNan_of_isFinite hb, isInf_of_isFinite ha, isInf_of_isFinite hb]

theorem sub_eq {a b : Word} (ha : isFinite a = true) (hb : isFinite b = true) :
    sub a b = roundSigned (sign a && !sign b) (units a - units b) 1 := by
  rw [sub, isNan_of_isFinite hb, if_neg nofun, add_eq ha (by rw [isFinite_neg, hb]), sign_neg, units_neg, Int.sub_eq_add_neg]

/-- What stands for no real number minus itself is no real number. -/
theorem sub_self_isNan {w : Word} (h : isFinite w = false) : isNan (sub w w) = true := by
  unfold sub
  split
  · exact isNan_nan w w
  · next hn =>
    rw [Bool.not_eq_true] at hn
    simp [add, hn, isInf_of_not_isFinite h hn]

theorem sub_isNan {a b : Word} (h : isNan a = true) : isNan (sub a b) = true := by
  unfold sub add
  split
  · exact isNan_nan a b
  · simp [h]

theorem isFinite_of_isNan {w : Word} (h : isNan w = true) : isFinite w = false := by
  simp [isNan] at h; simp [isFinite, h]

/-! ### The floor -/

/-- The floor of a number is exact: below `2^23` it is a whole number with few bits, and above every number is whole. -/
theorem units_floor {w : Word} (h : isFinite w = true) :
    units (floor w) = units w / 2 ^ 149 * 2 ^ 149 ∧ isFinite (floor w) = true := by
  rw [floor, if_pos h]
  have habs := units_natAbs w
  rcases lt_or_ge (mag w) (2 ^ (24 + 148)) with hsmall | hlarge
  · refine units_roundSigned_of_exact _ (m := (units w / 2 ^ 149).natAbs) (j := 149) ?_ (by omega) ?_
    · omega
    · rw [Int.natAbs_mul]; rfl
  · obtain ⟨q, hq⟩ := dvd_mag hlarge
    have hwhole : units w / 2 ^ 149 * 2 ^ 149 = units w := by omega
    obtain ⟨m, hm, hmag⟩ := mag_eq w
    have hexp : expo w < 255 := by
      have := expo_lt w
      simp [isFinite] at h
      omega
    rw [hwhole]
    exact units_roundSigned_of_exact _ hm (by omega) (habs.trans hmag)

/-! ### The fold -/

theorem units_half : units (arith.ofFrac 1 2) = 2 ^ 148 := by decide

theorem units_one : units (arith.ofNat 1) = 2 ^ 149 := by decide

theorem isFinite_one : isFinite (arith.ofNat 1) = true := by decide

/-- The floor modulus by 1 rounds to a value in `[0, 1]`. -/
theorem units_sub_floor {w : Word} (h : isFinite w = true) :
    0 ≤ units (sub w (floor w)) ∧ units (sub w (floor w)) ≤ 2 ^ 149 ∧ isFinite (sub w (floor w)) = true := by
  obtain ⟨hfloor, hfin⟩ := units_floor h
  have nonneg : 0 ≤ units w - units (floor w) := by omega
  have lt : units w - units (floor w) < 2 ^ 149 := by omega
  have hk : spacing (units w - units (floor w)).natAbs 1 ≤ 125 := spacing_lt (by rw [Nat.div_one]; omega)
  have hin := inRange_of_spacing_le Nat.one_pos (show spacing (units w - units (floor w)).natAbs 1 ≤ 252 by omega)
  have hle : mag (BitVec.ofNat 32 (roundMag (units w - units (floor w)).natAbs 1)) ≤ 2 ^ 149 :=
    mag_roundMag_le Nat.one_pos hin (by omega) (Nat.pow_dvd_pow 2 (by omega))
  rw [sub_eq h hfin]
  refine ⟨?_, ?_, isFinite_roundSigned _ Nat.one_pos hin⟩ <;>
    · rw [units_roundSigned, if_neg (by omega)]
      split <;> omega

/-- Above one half, 1 is subtracted without rounding. -/
theorem units_sub_one {r : Word} (hr : isFinite r = true) (lo : 2 ^ 148 < units r) (hi : units r ≤ 2 ^ 149) :
    units (sub r (arith.ofNat 1)) = units r - 2 ^ 149 := by
  have habs := units_natAbs r
  obtain ⟨q, hq⟩ := dvd_mag (w := r) (j := 124) (by omega)
  rw [sub_eq hr isFinite_one, units_one]
  exact (units_roundSigned_of_exact _ (m := 2 ^ 24 - q) (j := 125) (by omega) (by omega) (by omega)).1

/-- `fold` lands in `(-1/2, 1/2]` wherever it is a number (rule R147). -/
theorem fractionalWord_fold (w : Word) : fractionalWord (arith.fold w) := by
  intro hfin
  change isFinite (if ge (arith.ofFrac 1 2) (sub w (floor w)) then sub w (floor w) else sub (sub w (floor w)) (arith.ofNat 1))
    = true at hfin
  show _ < units (if ge (arith.ofFrac 1 2) (sub w (floor w)) then sub w (floor w) else sub (sub w (floor w)) (arith.ofNat 1))
    ∧ units (if ge (arith.ofFrac 1 2) (sub w (floor w)) then sub w (floor w) else sub (sub w (floor w)) (arith.ofNat 1)) ≤ _
  cases hw : isFinite w with
  | false =>
    have hnan : isNan (sub w (floor w)) = true := by
      rw [floor, hw, if_neg nofun]; exact sub_self_isNan hw
    rw [if_neg (by simp [ge, hnan]), isFinite_of_isNan (sub_isNan hnan)] at hfin
    cases hfin
  | true =>
    obtain ⟨lo, hi, hr⟩ := units_sub_floor hw
    split
    · next hge =>
      simp only [ge, units_half, Bool.and_eq_true, decide_eq_true_eq] at hge
      omega
    · next hge =>
      have hlt : 2 ^ 148 < units (sub w (floor w)) := by
        simpa [ge, isNan_of_isFinite hr, units_half, show isNan (arith.ofFrac 1 2) = false by decide] using hge
      rw [units_sub_one hr hlt hi]
      omega

end Sys2Proof.Machine.F32
end

section
/-! The fractional offsets: every step keeps them in `(-1/2, 1/2]`, and the delay tap they give stays in its range. Plain
real arithmetic is that of binary32 whatever the numerics record (log 3). -/

namespace Sys2Proof.Machine

/-! ### The offsets (O50) -/

theorem State.nums_fold (s : State) (x : Word) : s.nums.fold x = F32.arith.fold x := by
  unfold State.nums
  cases s.num <;> rfl

theorem fractionalWord_zero : fractionalWord 0 := fun _ => by decide

theorem offsetsFractional_neutral {s : State} {hdrSyms : BitVec 16} (h : s.acq = Acq.neutral hdrSyms) : OffsetsFractional s := by
  rw [OffsetsFractional, h]
  exact ⟨fractionalWord_zero, fractionalWord_zero⟩

theorem OffsetsFractional.of_core_eq {s t : State} (h : OffsetsFractional s) (e : t.core = s.core) : OffsetsFractional t := by
  have cfo : t.acq.lambdaCfo = s.acq.lambdaCfo := congrArg Core.lambdaCfo e
  have sto : t.acq.lambdaSto = s.acq.lambdaSto := congrArg Core.lambdaSto e
  rwa [OffsetsFractional, cfo, sto]

theorem OffsetsFractional.update {s t : State} (u : Update s t) (h : OffsetsFractional s) : OffsetsFractional t := by
  cases u with
  | registers e => exact h.of_core_eq e
  | store => exact h
  | foldCfo x => exact ⟨s.nums_fold x ▸ F32.fractionalWord_fold x, h.2⟩
  | foldSto x => exact ⟨h.1, s.nums_fold x ▸ F32.fractionalWord_fold x⟩
  | neutral => exact offsetsFractional_neutral rfl
  | drain => exact h

theorem writeReg_acq (s : State) (r : Reg) (w : Word) : (writeReg s r w).acq = s.acq := by cases r <;> rfl

theorem offsetsFractional_kept : StepKeeps OffsetsFractional where
  bus _ _ h := h
  busData _ _ h := h
  err _ _ h := h
  register s r w _ h := by rwa [OffsetsFractional, writeReg_acq]
  sample _ _ _ _ _ h := h
  reset _ _ := offsetsFractional_neutral (hdrSyms := 8) rfl
  start _ _ _ _ _ := offsetsFractional_neutral rfl
  frameInfo _ _ _ h := h
  work _ _ _ run h := body_keeps (fun _ _ => .update) (fun _ h => h) (.inl run) h
  unit i _ _ _ _ run h := body_keeps (fun _ _ => .update) (fun _ h => h) (.inr ⟨i, run⟩) h

/-- Settles O50: an offset is only ever reset to 0 or set to a folded value, and `fold` lands in the interval. -/
theorem stepsKeepTheOffsetsFractional : Obligations.StepsKeepTheOffsetsFractional :=
  fun _ _ hs h => offsetsFractional_kept.step hs h

/-! ### The delay tap (O34) -/

namespace F32

theorem units_ofNat {n : Nat} (h : n < 2 ^ 24) :
    units (arith.ofNat n) = n * 2 ^ 149 ∧ isFinite (arith.ofNat n) = true := by
  have hround : arith.ofFrac = ofFrac := rfl
  rw [Arith.ofNat, hround, ofFrac]
  exact units_roundSigned_of_exact false (m := n) (j := 149) h (by omega) (by omega)

theorem mul_eq {a b : Word} (ha : isFinite a = true) (hb : isFinite b = true) :
    mul a b = roundSigned (sign a != sign b) (units a * units b) (2 ^ 149) := by
  simp [mul, isNan_of_isFinite ha, isNan_of_isFinite hb, isInf_of_isFinite ha, isInf_of_isFinite hb]

theorem isFinite_inf (b : Bool) : isFinite (inf b) = false := by cases b <;> decide

/-- A product with an infinity or a NaN is no real number. -/
theorem isFinite_mul_left {a b : Word} (ha : isFinite a = false) : isFinite (mul a b) = false := by
  unfold mul
  dsimp only
  split
  · exact isFinite_nan a b
  · next hn =>
    have hinf : isInf a = true := isInf_of_not_isFinite ha (by simp at hn; exact hn.1)
    rw [hinf, Bool.true_or, if_pos rfl]
    split
    · exact isFinite_nan a b
    · exact isFinite_inf _

/-- Half a spacing is the most a rounded magnitude exceeds its value by. -/
theorem two_mul_mag_roundMag_le {num den : Nat} (h : 0 < den) (hin : InRange num den) :
    2 * mag (BitVec.ofNat 32 (roundMag num den)) * den ≤ 2 * num + den * 2 ^ spacing num den := by
  rw [(fields_roundMag h hin).1]
  have near := (divEven_near (num := num) (den := den * 2 ^ spacing num den) (by positivity)).1
  unfold significand
  linarith

/-- The magnitude of a product with a whole number, before rounding. -/
def product (m os : Nat) : Nat := m * os * 2 ^ 149

theorem product_div (m os : Nat) : product m os / 2 ^ 149 = m * os := Nat.mul_div_cancel _ (by positivity)

theorem spacing_product_le {m os : Nat} (hm : m ≤ 2 ^ 148) (hos : os ≤ 16) : spacing (product m os) (2 ^ 149) ≤ 129 := by
  have hle : m * os ≤ 2 ^ 148 * 16 := Nat.mul_le_mul hm hos
  exact spacing_lt (by rw [product_div]; omega)

theorem inRange_product {m os : Nat} (hm : m ≤ 2 ^ 148) (hos : os ≤ 16) : InRange (product m os) (2 ^ 149) :=
  inRange_of_spacing_le (by positivity) ((spacing_product_le hm hos).trans (by decide))

/-- A factor of at most one half leaves at most half of the other. -/
theorem mag_product_le {m os : Nat} (hm : m ≤ 2 ^ 148) (hos : os ≤ 16) :
    mag (BitVec.ofNat 32 (roundMag (product m os) (2 ^ 149))) ≤ os * 2 ^ 148 := by
  have hk := spacing_product_le hm hos
  have hle : m * os ≤ 2 ^ 148 * os := Nat.mul_le_mul_right os hm
  refine mag_roundMag_le (by positivity) (inRange_product hm hos) ?_ (Dvd.dvd.mul_left (Nat.pow_dvd_pow 2 (by omega)) os)
  exact Nat.mul_le_mul_right _ (by omega)

/-- A factor below one half leaves less than half of the other: the step of the format below one half is more than rounding
makes up for. -/
theorem mag_product_lt {m os : Nat} (hm : m ≤ (2 ^ 24 - 1) * 2 ^ 124) (hpos : 1 ≤ os) (hos : os ≤ 16) :
    mag (BitVec.ofNat 32 (roundMag (product m os) (2 ^ 149))) < os * 2 ^ 148 := by
  have hle : m * os ≤ (2 ^ 24 - 1) * 2 ^ 124 * os := Nat.mul_le_mul_right os hm
  have near := two_mul_mag_roundMag_le (by positivity) (inRange_product (m := m) (by omega) hos)
  have hpow : 2 ^ spacing (product m os) (2 ^ 149) < os * 2 ^ 125 := by
    by_cases h0 : spacing (product m os) (2 ^ 149) = 0
    · rw [h0]; omega
    · have := pow_spacing_le h0
      rw [product_div] at this
      omega
  generalize mag (BitVec.ofNat 32 (roundMag (product m os) (2 ^ 149))) = r at near ⊢
  generalize 2 ^ spacing (product m os) (2 ^ 149) = p at near hpow
  unfold product at near
  omega

/-- The product of a fractional offset and a whole number lies between minus and plus half of that number. -/
theorem units_mul_ofNat {lam : Word} {os : Nat} (hlam : isFinite lam = true) (frac : fractionalWord lam) (hpos : 1 ≤ os)
    (hos : os ≤ 16) :
    isFinite (mul lam (arith.ofNat os)) = true ∧ -(os * 2 ^ 148 : Int) < units (mul lam (arith.ofNat os)) ∧
      units (mul lam (arith.ofNat os)) ≤ os * 2 ^ 148 := by
  obtain ⟨hunits, hfin⟩ := units_ofNat (n := os) (by omega)
  obtain ⟨lo, hi⟩ := frac hlam
  have habs := units_natAbs lam
  have hle := mag_product_le (m := mag lam) (by omega) hos
  have hnum : (units lam * units (arith.ofNat os)).natAbs = product (mag lam) os := by
    rw [hunits, Int.natAbs_mul, habs, show (os * 2 ^ 149 : Int).natAbs = os * 2 ^ 149 by omega, ← Nat.mul_assoc, product]
  rw [mul_eq hlam hfin]
  refine ⟨isFinite_roundSigned _ (by positivity) (hnum ▸ inRange_product (by omega) hos), ?_⟩
  rw [units_roundSigned, hnum]
  split
  · next hneg =>
    have hlt := mag_product_lt (mag_le_of_lt (j := 124) (w := lam) ?_) hpos hos
    · omega
    · have : units lam < 0 := by
        by_contra hnonneg
        have : 0 ≤ units lam * units (arith.ofNat os) := Int.mul_nonneg (by omega) (by omega)
        omega
      omega
  · split <;> omega

/-- `round_haz` of a value between minus and plus half a whole number. -/
theorem roundHaz_of_units {w : Word} {os : Nat} (h : isFinite w = true) (lo : -(os * 2 ^ 148 : Int) < units w)
    (hi : units w ≤ os * 2 ^ 148) :
    ∃ r, roundHaz w = some r ∧ -((os / 2 : Nat) : Int) ≤ r ∧ r ≤ ((os + 1) / 2 : Nat) := by
  refine ⟨_, if_pos h, ?_⟩
  unfold units at lo hi
  cases hs : sign w <;> simp only [hs, if_true, Bool.false_eq_true, if_false] at lo hi ⊢ <;> omega

end F32

/-- The bounds of rule R181. -/
def TapInRange (os : Nat) (d : Int) : Prop := -((os / 2 : Nat) : Int) ≤ d ∧ d ≤ ((os + 1) / 2 : Nat) ∧ d ≤ (os : Int) - 1

/-- The tap is the clamped rounded product, or the clamped free value where the product is no real number. -/
theorem State.tap_inRange (s : State) {lam : Word} {os : Nat} (frac : fractionalWord lam) (hpos : 1 ≤ os) (hos : os ≤ 16) :
    TapInRange os (s.nums.tap lam os) := by
  have hround : s.nums.roundHaz (s.nums.mul lam (s.nums.ofNat os)) = F32.roundHaz (F32.mul lam (F32.arith.ofNat os)) := by
    unfold State.nums; cases s.num <;> rfl
  unfold Num.tap TapInRange
  rw [hround]
  cases hlam : F32.isFinite lam with
  | false =>
    rw [F32.roundHaz, F32.isFinite_mul_left hlam, if_neg nofun]
    dsimp only
    omega
  | true =>
    obtain ⟨hfin, lo, hi⟩ := F32.units_mul_ofNat hlam frac hpos hos
    obtain ⟨r, hr, lo, hi⟩ := F32.roundHaz_of_units hfin lo hi
    rw [hr]
    dsimp only
    omega

theorem toInt_intWord {v : Int} (lo : -2 ^ 31 ≤ v) (hi : v < 2 ^ 31) : (intWord v).toInt = v := by
  rw [intWord, BitVec.toInt_ofInt, Int.bmod_eq_of_le] <;> omega

theorem toInt_setTap {s : State} (frac : fractionalWord s.acq.lambdaSto) (hpos : 1 ≤ s.os) (hos : s.os ≤ 16) :
    TapInRange s.os s.setTap.delayD.toInt := by
  have htap := s.tap_inRange frac hpos hos
  have ⟨lo, hi, _⟩ := htap
  rwa [State.setTap_delayD, toInt_intWord (by omega) (by omega)]

/-- Settles O34: in `TEST` mode `FDLY` writes the tap. -/
theorem delayTapStaysInItsRange : Obligations.DelayTapStaysInItsRange := by
  intro s t ⟨hs, ht⟩ hpos hos frac h
  have hrun : exec .fdly s = .next (s.setTap.setErr .none) :=
    unitCommand_ok (body := fun s => .ok s.setTap) hs ht rfl
  rw [hrun] at h
  rw [← Host.Outcome.next.inj h]
  exact toInt_setTap frac hpos hos

end Sys2Proof.Machine
end

section
/-! The bus: the addresses of rule R60, and what a read or a write of a register does. -/

namespace Sys2Proof.Machine

/-! ### Addresses (O5) -/

theorem spaceOf_of_lt {a : Addr} (h : a.toNat < 2 ^ 20) : spaceOf a = .reg := by
  have hfield : (a.extractLsb' 20 4).toNat = 0 := by rw [spaceField_toNat]; omega
  rw [spaceOf, hfield]
  rfl

theorem spaceOf_reserved {a : Addr} (h : 9 * 2 ^ 20 ≤ a.toNat) : spaceOf a = .reserved := by
  have hfield : 9 ≤ (a.extractLsb' 20 4).toNat := by rw [spaceField_toNat]; omega
  unfold spaceOf
  split <;> first | rfl | omega

theorem sampleAddr_toNat (sp : Space) {off : Nat} (h : off < 2 ^ 20) :
    (sampleAddr sp off).toNat = sp.number * 2 ^ 20 + off := by
  rw [sampleAddr, BitVec.toNat_ofNat, Nat.mod_eq_of_lt]
  cases sp <;> simp only [Space.number] <;> omega

theorem spaceOf_sampleAddr (sp : Space) {off : Nat} (h : off < 2 ^ 20) : spaceOf (sampleAddr sp off) = .sample sp := by
  have hfield : ((sampleAddr sp off).extractLsb' 20 4).toNat = sp.number := by
    rw [spaceField_toNat, sampleAddr_toNat sp h]; omega
  rw [spaceOf, hfield]
  cases sp <;> rfl

theorem offsetOf_sampleAddr (sp : Space) {off : Nat} (h : off < 2 ^ 20) : offsetOf (sampleAddr sp off) = off := by
  rw [offsetOf_eq, sampleAddr_toNat sp h]; omega

theorem regOfNumber_some_lt {r : Nat} {reg : Reg} (h : regOfNumber r = some reg) : r < 0x40 := by
  unfold regOfNumber at h
  by_contra hlt
  split at h <;> first | omega | cases h

/-- The numbers rule R47 reserves hold no register. -/
theorem regOfNumber_reserved {r : Nat}
    (h : (0x08 ≤ r ∧ r ≤ 0x0F) ∨ (0x1D ≤ r ∧ r ≤ 0x1F) ∨ (0x34 ≤ r ∧ r ≤ 0x37) ∨ 0x40 ≤ r) : regOfNumber r = none := by
  unfold regOfNumber
  split <;> first | rfl | omega

theorem busRead_register {a : Addr} {reg : Reg} (hs : spaceOf a = .reg) (hr : regOfNumber (offsetOf a) = some reg)
    (s : State) : busRead a s = .ok (readReg s reg) := by
  unfold busRead; rw [hs]; dsimp only; rw [hr]

theorem busWrite_register {a : Addr} {reg : Reg} (hs : spaceOf a = .reg) (hr : regOfNumber (offsetOf a) = some reg)
    (w : Word) (s : State) : busWrite a w s = writeRegister reg w s := by
  unfold busWrite; rw [hs]; dsimp only; rw [hr]

/-- A step whose access is a read that returns a word. -/
theorem step_read {s : State} {rest : List BusOp} {a : Addr} {w : Word} (hbus : s.bus = .read a :: rest)
    (h : busRead a (s.setBus rest) = .ok w) : step s = .next { s with bus := rest, busData := w } := by
  rw [step_cons s _ rest hbus]
  exact (busAccess_read a _ _).2 ⟨w, h, rfl⟩

theorem step_write {s : State} {rest : List BusOp} {a : Addr} {w : Word} (hbus : s.bus = .write a w :: rest) :
    step s = busWrite a w (s.setBus rest) := step_cons s _ rest hbus

theorem reserved_cases {a : Addr} (h : reservedAddr a) :
    spaceOf a = .reserved ∨ (spaceOf a = .reg ∧ regOfNumber (offsetOf a) = none) := by
  rcases h with h | h
  · exact .inl (spaceOf_reserved h)
  · refine .inr ⟨spaceOf_of_lt (by omega), regOfNumber_reserved ?_⟩
    rw [offsetOf_eq]
    omega

theorem busRead_reserved {a : Addr} (h : reservedAddr a) (s : State) : busRead a s = .ok 0 := by
  unfold busRead
  obtain hs | ⟨hs, hr⟩ := reserved_cases h
  · rw [hs]
  · rw [hs]; dsimp only; rw [hr]

theorem busWrite_reserved {a : Addr} (h : reservedAddr a) (w : Word) (s : State) : busWrite a w s = cmdError .addr s := by
  unfold busWrite
  obtain hs | ⟨hs, hr⟩ := reserved_cases h
  · rw [hs]
  · rw [hs]; dsimp only; rw [hr]

/-- Settles O5: a reserved address names no register and no sample memory. -/
theorem reservedAddressesReadZeroAndRefuseWrites : Obligations.ReservedAddressesReadZeroAndRefuseWrites :=
  fun _ _ _ ha => ⟨fun hbus => step_read hbus (busRead_reserved ha _),
    fun w hbus => (step_write hbus).trans (busWrite_reserved ha w _)⟩

/-! ### Registers by number (O6) -/

/-- The registers but `STATUS` with their numbers, in the order of `registerView`. -/
def numberedRegs : List (Nat × Reg) :=
  [(0x00, .cfgSf), (0x01, .cfgOs), (0x02, .cfgNup), (0x03, .cfgNused), (0x04, .cfgSync0), (0x05, .cfgSync1),
   (0x06, .cfgFlags), (0x07, .cfgHdrsyms), (0x10, .cmd), (0x12, .inAvail), (0x13, .outCap), (0x14, .consumed),
   (0x15, .produced), (0x16, .tagValid), (0x17, .tagOffsetLo), (0x18, .tagOffsetHi), (0x19, .tagCfoint),
   (0x1A, .fiFlags), (0x1B, .fiPaylen), (0x1C, .fiSymbnumb), (0x20, .kHat), (0x21, .lambdaCfo), (0x22, .lambdaSto),
   (0x23, .cfoInt), (0x24, .binPrev), (0x25, .matchCnt), (0x26, .netIdOff), (0x27, .downVal), (0x28, .symCnt),
   (0x29, .symbNumb), (0x2A, .netId1), (0x2B, .netId2), (0x2C, .fmPaylen), (0x2D, .fmHascrc), (0x2E, .inCountLo),
   (0x2F, .inCountHi), (0x30, .outCountLo), (0x31, .outCountHi), (0x32, .resyncCount), (0x33, .delayD), (0x38, .rBin),
   (0x39, .rEnergy), (0x3A, .rKa), (0x3B, .rAlt), (0x3C, .opYm1), (0x3D, .opY0), (0x3E, .opYp1), (0x3F, .rK0)]

theorem low_half (x : BitVec 64) : x.setWidth 32 = x.extractLsb' 0 32 := BitVec.setWidth_eq_extractLsb' (by decide)

theorem high_half (x : BitVec 64) : (x >>> 32).setWidth 32 = x.extractLsb' 32 32 := by
  apply BitVec.eq_of_toNat_eq
  simp

/-- The view by number is the read of each register. -/
theorem registerView_eq (s : State) : registerView s = numberedRegs.map fun p => (p.1, readReg s p.2) := by
  simp only [registerView, high_half]
  simp only [low_half]
  rfl

theorem mem_registerView {s : State} {r : Nat} {v : Word} (h : (r, v) ∈ registerView s) :
    ∃ reg, (r, reg) ∈ numberedRegs ∧ readReg s reg = v := by
  rw [registerView_eq, List.mem_map] at h
  obtain ⟨p, hp, heq⟩ := h
  obtain ⟨rfl, rfl⟩ := Prod.mk.inj heq
  exact ⟨p.2, hp, rfl⟩

theorem registerView_mem (s : State) {r : Nat} {reg : Reg} (h : (r, reg) ∈ numberedRegs) :
    (r, readReg s reg) ∈ registerView s := by
  rw [registerView_eq]
  exact List.mem_map_of_mem (f := fun p : Nat × Reg => (p.1, readReg s p.2)) h

theorem regOfNumber_of_mem : ∀ p ∈ (0x11, .status) :: numberedRegs, regOfNumber p.1 = some p.2 := by decide

theorem regAddr_toNat {r : Nat} {reg : Reg} (h : regOfNumber r = some reg) : (regAddr r).toNat = r := by
  have hlt := regOfNumber_some_lt h
  rw [regAddr, BitVec.toNat_ofNat]
  omega

/-- The address of a register's number leads to the register. -/
theorem regAddr_register {r : Nat} {reg : Reg} (h : regOfNumber r = some reg) :
    spaceOf (regAddr r) = .reg ∧ regOfNumber (offsetOf (regAddr r)) = some reg := by
  have hnat := regAddr_toNat h
  have hlt := regOfNumber_some_lt h
  refine ⟨spaceOf_of_lt (by omega), ?_⟩
  rw [offsetOf_eq, hnat, Nat.mod_eq_of_lt (by omega), h]

theorem busRead_regAddr {r : Nat} {reg : Reg} (h : regOfNumber r = some reg) (s : State) :
    busRead (regAddr r) s = .ok (readReg s reg) := by
  obtain ⟨hs, hr⟩ := regAddr_register h
  exact busRead_register hs hr s

theorem busWrite_regAddr {r : Nat} {reg : Reg} (h : regOfNumber r = some reg) (w : Word) (s : State) :
    busWrite (regAddr r) w s = writeRegister reg w s := by
  obtain ⟨hs, hr⟩ := regAddr_register h
  exact busWrite_register hs hr w s

theorem readReg_setBus (s : State) (ops : List BusOp) (reg : Reg) : readReg (s.setBus ops) reg = readReg s reg := by
  cases reg <;> rfl

/-- Settles O6: the bus reads the register whose number the address is. -/
theorem registersReadByNumber : Obligations.RegistersReadByNumber := by
  intro s rest r v hv hbus
  obtain ⟨reg, hreg, rfl⟩ := mem_registerView hv
  refine step_read hbus ?_
  rw [busRead_regAddr (regOfNumber_of_mem _ (List.mem_cons_of_mem _ hreg)), readReg_setBus]

/-! ### `STATUS` (O7) -/

/-- A field inside the low part of two words joined. -/
theorem extract_low {m n start len : Nat} (x : BitVec m) (y : BitVec n) (h : start + len ≤ n) :
    (x ++ y).extractLsb' start len = y.extractLsb' start len := BitVec.extractLsb'_append_eq_of_add_le h

/-- A field inside the high part of two words joined. -/
theorem extract_high {m n start len : Nat} (x : BitVec m) (y : BitVec n) (h : n ≤ start) :
    (x ++ y).extractLsb' start len = x.extractLsb' (start - n) len := BitVec.extractLsb'_append_eq_of_le h

/-- The fields of `STATUS` in their places (rule R36). -/
theorem statusWord_fields (s : State) :
    (statusWord s).extractLsb' 0 1 = BitVec.ofBool s.started ∧ (statusWord s).extractLsb' 1 1 = BitVec.ofBool s.test ∧
    (statusWord s).extractLsb' 2 2 = BitVec.ofNat 2 s.acq.state.code ∧
    (statusWord s).extractLsb' 4 3 = BitVec.ofNat 3 s.acq.syncPos.code ∧
    (statusWord s).extractLsb' 7 1 = BitVec.ofBool s.acq.estDone ∧
    (statusWord s).extractLsb' 8 4 = BitVec.ofNat 4 s.err.code ∧
    (statusWord s).extractLsb' 12 4 = BitVec.ofNat 4 s.resyncCause.code ∧
    (statusWord s).extractLsb' 16 3 = BitVec.ofNat 3 s.evq.length ∧ (statusWord s).extractLsb' 19 13 = 0 := by
  unfold statusWord
  refine ⟨(extract_low _ _ (by decide)).trans BitVec.extractLsb'_eq_self, ?_, ?_, ?_, ?_, ?_, ?_, ?_, ?_⟩ <;>
    refine (extract_high _ _ (by decide)).trans ?_ <;>
    simp (disch := decide) only [extract_low, extract_high, BitVec.extractLsb'_eq_self, Nat.reduceSub, Nat.sub_self,
      BitVec.ofNat_eq_ofNat]

theorem getLsbD_of_extract {w : Word} {i : Nat} {b : Bool} (h : w.extractLsb' i 1 = BitVec.ofBool b) : w.getLsbD i = b := by
  have h0 := congrArg (fun x : BitVec 1 => x.getLsbD 0) h
  simpa using h0

/-- Settles O7: the word is read from its place; each code fits its field. -/
theorem statusFieldsAreInTheirPlaces : Obligations.StatusFieldsAreInTheirPlaces := by
  intro s rest hbus hqueue
  have hread : busRead (regAddr 0x11) (s.setBus rest) = .ok (statusWord s) :=
    busRead_regAddr (r := 0x11) (reg := .status) rfl _
  obtain ⟨started, test, state, pos, est, err, cause, level, zeros⟩ := statusWord_fields s
  refine ⟨statusWord s, step_read hbus hread, getLsbD_of_extract started, getLsbD_of_extract test, ?_, ?_,
    getLsbD_of_extract est, ?_, ?_, ?_, zeros⟩
  · rw [state]; cases s.acq.state <;> rfl
  · rw [pos]; cases s.acq.syncPos <;> rfl
  · rw [err]; cases s.err <;> rfl
  · rw [cause]; cases s.resyncCause <;> rfl
  · rw [level, BitVec.toNat_ofNat]
    unfold Config.evqDepth at hqueue
    omega

/-! ### Register writes (O8, O9) -/

theorem writeRegister_refused {r : Reg} {s : State} (hw : r.access ≠ .wo) (h : ¬r.access.admits s) (w : Word) :
    writeRegister r w s = cmdError r.access.refusal s := by
  unfold Access.admits at h
  unfold writeRegister
  cases hacc : r.access with
  | ro => simp [Access.refusal]
  | rw => simp [hacc] at h
  | rwc => simp [hacc] at h; simp [h, Access.refusal]
  | rwt => simp [hacc] at h; simp [h, Access.refusal]
  | wo => exact absurd hacc hw

theorem writeRegister_admitted {r : Reg} {s : State} (h : r.access.admits s) (hr : r ≠ .cmd) (w : Word) :
    writeRegister r w s = if r.fits w = false then cmdError .value s else .next (writeReg s r w) := by
  unfold Access.admits at h
  unfold writeRegister
  rcases h with h | ⟨h, hs⟩ | ⟨h, ht⟩
  · simp [h, hr]
  · simp [h, hr, hs]
  · simp [h, hr, ht]

/-- The classes and widths by number are those of the registers with these numbers. -/
theorem registerClasses_rows : ∀ row ∈ registerClasses, ∃ p ∈ (0x11, Reg.status) :: numberedRegs,
    p.1 = row.1 ∧ p.2.access = row.2.1 ∧ p.2.width = row.2.2 ∧ p.2 ≠ .cmd := by decide

theorem registerClasses_mem {r : Nat} {c : Access} {k : Nat} (h : (r, c, k) ∈ registerClasses) :
    ∃ reg, (r, reg) ∈ (0x11, Reg.status) :: numberedRegs ∧ reg.access = c ∧ reg.width = k ∧ reg ≠ .cmd := by
  obtain ⟨⟨r', reg⟩, hp, rfl, hacc, hwidth, hcmd⟩ := registerClasses_rows _ h
  exact ⟨reg, hp, hacc, hwidth, hcmd⟩

/-- Settles O8: the class is checked first, then the field. -/
theorem refusedRegisterWritesSetOnlyTheErrorCode : Obligations.RefusedRegisterWritesSetOnlyTheErrorCode := by
  intro s rest r c k w hrow hbus
  obtain ⟨reg, hreg, rfl, rfl, hcmd⟩ := registerClasses_mem hrow
  have hwo : reg.access ≠ .wo := fun h => hcmd (access_eq_wo reg h)
  rw [step_write hbus, busWrite_regAddr (regOfNumber_of_mem _ hreg)]
  refine ⟨fun hn => writeRegister_refused (s := s.setBus rest) hwo hn w, fun ha hwide => ?_⟩
  have hfits : reg.fits w = false := decide_eq_false (by omega)
  rw [writeRegister_admitted (s := s.setBus rest) ha hcmd, if_pos hfits]
  rfl

theorem setWidth_setWidth_of_lt {w : Word} {k : Nat} (h : w.toNat < 2 ^ k) : (w.setWidth k).setWidth 32 = w := by
  apply BitVec.eq_of_toNat_eq
  rw [BitVec.toNat_setWidth, BitVec.toNat_setWidth, Nat.mod_eq_of_lt h, Nat.mod_eq_of_lt w.isLt]

/-- A written register reads the word. -/
theorem readReg_writeReg_same {s : State} {r : Reg} {w : Word} (h : r.access.admits s) (hw : w.toNat < 2 ^ r.width) :
    readReg (writeReg s r w) r = w := by
  cases r <;> first | rfl | exact setWidth_setWidth_of_lt hw | simp [Reg.access, Access.admits] at h

/-- Every other register reads as before, but for the two views that follow the configuration (rule R29). -/
theorem readReg_writeReg_other {s : State} {r r' : Reg} {w : Word} (h : r' ≠ r) (h1 : r' ≠ .netId1) (h2 : r' ≠ .netId2) :
    readReg (writeReg s r w) r' = readReg s r' := by
  cases r <;> first | rfl | (cases r' <;> first | rfl | contradiction)

theorem writeReg_frame (s : State) (r : Reg) (w : Word) :
    statusWord (writeReg s r w) = statusWord s ∧ (writeReg s r w).started = s.started ∧ (writeReg s r w).test = s.test ∧
    (writeReg s r w).err = s.err ∧ (writeReg s r w).acq = s.acq ∧ (writeReg s r w).mems = s.mems ∧
    (writeReg s r w).evq = s.evq ∧ (writeReg s r w).num = s.num ∧ (writeReg s r w).busData = s.busData ∧
    (writeReg s r w).bus = s.bus := by
  cases r <;> exact ⟨rfl, rfl, rfl, rfl, rfl, rfl, rfl, rfl, rfl, rfl⟩

/-- Every register has one number. -/
theorem numberedRegs_injective {r r' : Nat} {reg : Reg} (h : (r, reg) ∈ numberedRegs) (h' : (r', reg) ∈ numberedRegs) :
    r = r' := by
  have hnodup : (numberedRegs.map Prod.snd).Nodup := by decide
  exact congrArg Prod.fst (List.inj_on_of_nodup_map hnodup h h' rfl)

/-- Settles O9: an admitted word in its field is stored, and the store is framed register by register. -/
theorem acceptedRegisterWritesStoreTheWord : Obligations.AcceptedRegisterWritesStoreTheWord := by
  intro s rest r c k w hrow hbus ha hw
  obtain ⟨reg, hreg, rfl, rfl, hcmd⟩ := registerClasses_mem hrow
  have hnumbered : (r, reg) ∈ numberedRegs := by
    obtain heq | hmem := List.mem_cons.1 hreg
    · obtain ⟨-, rfl⟩ := Prod.mk.inj heq
      simp [Reg.access, Access.admits] at ha
    · exact hmem
  have hfits : ¬reg.fits w = false := by simpa [Reg.fits] using hw
  refine ⟨writeReg (s.setBus rest) reg w, ?_, ?_, ?_, writeReg_frame (s.setBus rest) reg w⟩
  · rw [step_write hbus, busWrite_regAddr (regOfNumber_of_mem _ hreg), writeRegister_admitted (s := s.setBus rest) ha hcmd,
      if_neg hfits]
  · have hstored := registerView_mem (writeReg (s.setBus rest) reg w) hnumbered
    rwa [readReg_writeReg_same (s := s.setBus rest) ha hw] at hstored
  · intro r' v hv hne hne1 hne2
    obtain ⟨reg', hreg', rfl⟩ := mem_registerView hv
    have other : readReg (writeReg (s.setBus rest) reg w) reg' = readReg (s.setBus rest) reg' := by
      refine readReg_writeReg_other ?_ ?_ ?_ <;> rintro rfl
      · exact hne (numberedRegs_injective hreg' hnumbered)
      · exact hne1 (numberedRegs_injective hreg' (by decide))
      · exact hne2 (numberedRegs_injective hreg' (by decide))
    rw [← readReg_setBus s rest, ← other]
    exact registerView_mem _ hreg'

/-! ### Configurations (O10) -/

theorem Cfg.netIds_of_two_sync {c : Cfg} (h : c.flags.getLsbD 0 = true) :
    c.netId1 = c.sync0.toNat ∧ c.netId2 = c.sync1.toNat := by
  rw [Cfg.netId1, Cfg.netId2, if_pos h, if_pos h]; exact ⟨rfl, rfl⟩

theorem Cfg.netIds_of_one_sync {c : Cfg} (h : c.flags.getLsbD 0 = false) :
    c.netId1 = (c.sync0.toNat / 16 % 16) * 8 ∧ c.netId2 = (c.sync0.toNat % 16) * 8 := by
  have hn : ¬c.flags.getLsbD 0 = true := by rw [h]; exact nofun
  rw [Cfg.netId1, Cfg.netId2, if_neg hn, if_neg hn, BitVec.extractLsb'_toNat, BitVec.extractLsb'_toNat,
    Nat.shiftRight_eq_div_pow]
  exact ⟨rfl, rfl⟩

/-- The ranges of rules R34 and R35. -/
theorem Cfg.valid_iff (c : Cfg) : c.valid = true ↔
    (7 ≤ c.sf.toNat ∧ c.sf.toNat ≤ 12) ∧ (1 ≤ c.os.toNat ∧ c.os.toNat ≤ 16) ∧ (3 ≤ c.nup.toNat ∧ c.nup.toNat ≤ 32) ∧
    (1 ≤ c.nused.toNat ∧ (c.nused.toNat : Int) ≤ c.nup.toNat - 1) ∧ 1 ≤ c.hdrSyms.toNat ∧
    (c.flags.getLsbD 0 = false → c.sync0.toNat ≤ 0xFF) ∧
    (c.flags.getLsbD 0 = true → c.sync0.toNat < 2 ^ c.sf.toNat ∧ c.sync1.toNat < 2 ^ c.sf.toNat) := by
  have hnused : (c.nused.toNat : Int) ≤ c.nup.toNat - 1 ↔ c.nused.toNat + 1 ≤ c.nup.toNat := by omega
  rw [hnused]
  unfold Cfg.valid
  cases c.flags.getLsbD 0 <;> simp [and_assoc]

/-- Settles O10: one sync word gives identifiers of at most 15 * 8, below every `N`; two are checked against `N`. -/
theorem validConfigurationsAndTheirIdentifiers : Obligations.ValidConfigurationsAndTheirIdentifiers := by
  intro c
  refine ⟨c.valid_iff, Cfg.netIds_of_one_sync, Cfg.netIds_of_two_sync, fun hv => ?_⟩
  obtain ⟨⟨hsf, -⟩, -, -, -, -, -, htwo⟩ := c.valid_iff.1 hv
  cases hflag : c.flags.getLsbD 0 with
  | true =>
    obtain ⟨h1, h2⟩ := Cfg.netIds_of_two_sync hflag
    rw [h1, h2]
    exact htwo hflag
  | false =>
    obtain ⟨h1, h2⟩ := Cfg.netIds_of_one_sync hflag
    have hn : 2 ^ 7 ≤ 2 ^ c.sf.toNat := Nat.pow_le_pow_right (by decide) hsf
    rw [h1, h2]
    omega

/-! ### Sample memories (O11) -/

theorem busRead_sample_outside {a : Addr} {sp : Space} {s : State} (ha : spaceOf a = .sample sp)
    (h : s.started = false ∨ 2 * s.capacity sp ≤ offsetOf a) : busRead a s = .ok 0 := by
  unfold busRead
  rw [ha]
  dsimp only
  rw [if_neg]
  rcases h with h | h <;> simp [h]

theorem busRead_sample_inside {a : Addr} {sp : Space} {s : State} (ha : spaceOf a = .sample sp) (hs : s.started = true)
    (hlt : offsetOf a < 2 * s.capacity sp) :
    (∀ w, s.load sp (offsetOf a) = some w → busRead a s = .ok w) ∧
      (s.load sp (offsetOf a) = none → busRead a s = .error (.unwritten sp)) := by
  unfold busRead
  rw [ha]
  dsimp only
  rw [hs, Bool.true_and, if_pos (decide_eq_true hlt)]
  exact ⟨fun w h => by rw [h], fun h => by rw [h]⟩

theorem setBus_load (s : State) (ops : List BusOp) (sp : Space) (off : Nat) : (s.setBus ops).load sp off = s.load sp off := by
  rw [State.load, State.setBus_mem]; rfl

theorem setBus_capacity (s : State) (ops : List BusOp) (sp : Space) : (s.setBus ops).capacity sp = s.capacity sp := by
  cases sp <;> rfl

/-- Settles O11: the read is guarded by `STARTED` and the capacity, and returns the word or faults. -/
theorem sampleReadsReturnTheStoredWord : Obligations.SampleReadsReturnTheStoredWord := by
  refine ⟨fun s => ⟨rfl, rfl, rfl, rfl, rfl, rfl, rfl, rfl⟩, fun s rest sp off hoff hbus => ?_⟩
  have hspace := spaceOf_sampleAddr sp hoff
  refine ⟨fun h => step_read hbus (busRead_sample_outside hspace ?_), fun hs hlt => ?_⟩
  · rwa [State.setBus_started, setBus_capacity, offsetOf_sampleAddr sp hoff]
  · obtain ⟨written, unwritten⟩ := busRead_sample_inside (s := s.setBus rest) hspace hs
      (by rwa [setBus_capacity, offsetOf_sampleAddr sp hoff])
    rw [setBus_load, offsetOf_sampleAddr sp hoff] at written unwritten
    refine ⟨fun w hw => step_read hbus (written w hw), fun hnone => ?_⟩
    rw [step_cons s _ rest hbus, busAccess, unwritten hnone]

/-! ### Reset (O16) -/

theorem resetTable_rows : ∀ row ∈ resetTable, ∃ p ∈ (0x11, Reg.status) :: numberedRegs,
    p.1 = row.1 ∧ readReg State.reset p.2 = row.2 := by decide

/-- Settles O16: the table row by row, and `RESET` has no check. -/
theorem resetLeavesTheTabledValues : Obligations.ResetLeavesTheTabledValues := by
  refine ⟨fun r v hrow => ?_, fun sp off => by cases sp <;> rfl, rfl, rfl, rfl, rfl, rfl, rfl, rfl, rfl, fun s => rfl⟩
  obtain ⟨⟨r', reg⟩, hp, rfl, hv⟩ := resetTable_rows _ hrow
  dsimp only at hv ⊢
  rw [← hv]
  exact busRead_regAddr (regOfNumber_of_mem _ hp) _

end Sys2Proof.Machine
end

section
/-! Reads of unwritten elements (rule R45): which fault a unit command, a step of the state machine and `WORK` stop with. -/

namespace Sys2Proof.Machine

/-! ### The outcome of a unit command on a block in `TEST` mode -/

theorem exec_unit_ok {i : Instr} {s u : State} (hi : unitLevel i = true) (ht : Testing s) (h : runUnit i s = .ok u) :
    exec i s = .next (u.setErr .none) := by
  rw [exec_unit i s hi]
  exact unitCommand_ok ht.1 ht.2 h

theorem exec_unit_error {i : Instr} {s : State} {f : Fault} (hi : unitLevel i = true) (ht : Testing s)
    (h : runUnit i s = .error f) : exec i s = .fault f := by
  rw [exec_unit i s hi, unitCommand, if_pos ht.1, if_pos ht.2, h]
  rfl

theorem runUnit_of_next {i : Instr} {s t : State} (hi : unitLevel i = true) (ht : Testing s) (h : exec i s = .next t) :
    ∃ u, runUnit i s = .ok u ∧ t = u.setErr .none := by
  cases hrun : runUnit i s with
  | error f => rw [exec_unit_error hi ht hrun] at h; cases h
  | ok u => rw [exec_unit_ok hi ht hrun] at h; exact ⟨u, rfl, (Host.Outcome.next.inj h).symm⟩

theorem runUnit_of_fault {i : Instr} {s : State} {f : Fault} (hi : unitLevel i = true) (ht : Testing s)
    (h : exec i s = .fault f) : runUnit i s = .error f := by
  cases hrun : runUnit i s with
  | error g => rw [exec_unit_error hi ht hrun] at h; rw [Host.Outcome.fault.inj h]
  | ok u => rw [exec_unit_ok hi ht hrun] at h; cases h

/-! ### Reads -/

theorem bind_error_left {ε α β : Type} {x : Except ε α} {f : α → Except ε β} {e : ε} (h : x = .error e) :
    (x >>= f) = .error e := (bind_error x f e).2 (.inl h)

theorem bind_error_right {ε α β : Type} {x : Except ε α} {f : α → Except ε β} {e : ε} {a : α} (ha : x = .ok a)
    (h : f a = .error e) : (x >>= f) = .error e := (bind_error x f e).2 (.inr ⟨a, ha, h⟩)

section

variable {s : State}

theorem readElems_error {sp : Space} {idx : List Int} (h : ¬(s.mem sp).written idx = true) :
    readElems sp idx s = .error (.unwritten sp) := if_neg h

theorem readElems_written {sp : Space} {idx : List Int} (h : (s.mem sp).written idx = true) :
    readElems sp idx s = .ok ((s.mem sp).values idx) := if_pos h

theorem readVector_error {sp : Space} (h : ¬Written s sp s.n) : readVector sp s = .error (.unwritten sp) := readElems_error h

theorem readVector_written {sp : Space} (h : Written s sp s.n) : readVector sp s = .ok (s.vec sp s.n) := readElems_written h

theorem readPreamble_error {sp : Space} (h : ¬Written s sp (s.nused * s.n)) :
    readPreamble sp s = .error (.unwritten sp) := readElems_error h

theorem readPreamble_written {sp : Space} (h : Written s sp (s.nused * s.n)) :
    readPreamble sp s = .ok (s.vec sp (s.nused * s.n)) := readElems_written h

theorem readCorrected_error_sym (h : ¬Written s .sym s.n) : readCorrected s = .error (.unwritten .sym) :=
  bind_error_left (readVector_error h)

theorem readCorrected_error_corr (h : Written s .sym s.n) (hc : ¬Written s .corr s.n) :
    readCorrected s = .error (.unwritten .corr) :=
  bind_error_right (readVector_written h) (bind_error_left (readVector_error hc))

theorem readCorrected_written (h : Written s .sym s.n) (hc : Written s .corr s.n) : readCorrected s = .ok s.corrected :=
  (readCorrected_ok s _).2 ⟨h, hc, rfl⟩

theorem correlate_error {x : List Sample} {ref : RefSel} (h : ¬Written s (refSpace ref) s.n) :
    correlate x ref s = .error (.unwritten (refSpace ref)) := bind_error_left (readVector_error h)

/-- The reading order of `DEMOD`: `SYM`, then `CORR` if it is read, then the reference (log 6). -/
theorem runUnit_demod_faults (ref : RefSel) (src : SrcSel) :
    (¬Written s .sym s.n → runUnit (.demod ref src) s = .error (.unwritten .sym)) ∧
    (Written s .sym s.n → src = .symCorr → ¬Written s .corr s.n →
      runUnit (.demod ref src) s = .error (.unwritten .corr)) ∧
    (Written s .sym s.n → (src = .symCorr → Written s .corr s.n) → ¬Written s (refSpace ref) s.n →
      runUnit (.demod ref src) s = .error (.unwritten (refSpace ref))) := by
  refine ⟨fun h => bind_error_left ?_, fun h hsrc hc => ?_, fun h hc hr => ?_⟩
  · cases src
    · exact readVector_error h
    · exact readCorrected_error_sym h
  · subst hsrc
    exact bind_error_left (readCorrected_error_corr h hc)
  · have hcorr : ∃ x, readSource src s = .ok x := by
      cases src
      · exact ⟨_, readVector_written h⟩
      · exact ⟨_, readCorrected_written h (hc rfl)⟩
    obtain ⟨x, hx⟩ := hcorr
    exact bind_error_right hx (bind_error_left (correlate_error hr))

end

/-- Settles O32: each command reads its operands in one order, and stops at the first unwritten one. -/
theorem unwrittenOperandsFault : Obligations.UnwrittenOperandsFault := by
  intro s ht
  refine ⟨fun ref src => ?_, fun h => ?_, fun h hd => ?_, fun h => ?_, fun h hd => ?_, fun ⟨i, hi, hnone⟩ => ?_⟩
  · obtain ⟨hsym, hcorr, href⟩ := runUnit_demod_faults (s := s) ref src
    refine ⟨fun h => exec_unit_error rfl ht (hsym h), fun h hsrc hc => exec_unit_error rfl ht (hcorr h hsrc hc),
      fun h hc hr => ?_⟩
    cases ref <;> exact exec_unit_error rfl ht (href h hc hr)
  · exact ⟨exec_unit_error (i := .cfoest) rfl ht (bind_error_left (readPreamble_error h)),
      exec_unit_error (i := .cfoalt) rfl ht (bind_error_left (readPreamble_error h))⟩
  · exact ⟨exec_unit_error (i := .cfoest) rfl ht
        (bind_error_right (readPreamble_written h) (bind_error_left (readVector_error hd))),
      exec_unit_error (i := .cfoalt) rfl ht
        (bind_error_right (readPreamble_written h) (bind_error_left (readVector_error hd)))⟩
  · exact exec_unit_error (i := .stoest) rfl ht (bind_error_left (readPreamble_error h))
  · exact exec_unit_error (i := .stoest) rfl ht
      (bind_error_right (readPreamble_written h) (bind_error_left (readVector_error hd)))
  · refine exec_unit_error (i := .downs) rfl ht (bind_error_left (readElems_error fun hw => ?_))
    have hsome := (Mem.written_iff _ _).1 hw _ (List.mem_map_of_mem (List.mem_range.2 hi))
    rw [hnone] at hsome
    cases hsome

end Sys2Proof.Machine
end

section
/-! The mode and the error code are read by the checks of a command only: the bodies neither read nor write them. So `WORK`
in `RUN` mode does what the unit commands do in `TEST` mode (rule R101). -/

namespace Sys2Proof.Machine

/-! ### The step by state and position -/

/-- The step at a position of `SYNC` (rule R94). -/
def stepSync : SyncPos → State → Except Fault State
  | .netId1 => stepNetId1
  | .netId2 => stepNetId2
  | .downchirp1 => stepDownchirp1
  | .downchirp2 => stepDownchirp2
  | .quarterDown => stepQuarterDown

theorem stepCase_detect {s : State} (h : s.acq.state = .detect) : stepCase s = stepDetect s := by
  rw [stepCase, h]

theorem stepCase_sync {s : State} (h : s.acq.state = .sync) : stepCase s = stepSync s.acq.syncPos s := by
  rw [stepCase, h]
  cases s.acq.syncPos <;> rfl

theorem stepCase_frac {s : State} (h : s.acq.state = .fracCfoCorrec) : stepCase s = stepFrac s := by
  rw [stepCase, h]

/-! ### Actions that neither read nor write mode and error code -/

/-- The state with another mode bit and error code. -/
def State.relabel (b : Bool) (e : ErrCode) (s : State) : State := { s with test := b, err := e }

/-- An action that neither reads nor writes mode and error code; `r` relabels its result. -/
def Blind {α : Type} (b : Bool) (e : ErrCode) (r : α → α) (f : State → Except Fault α) : Prop :=
  ∀ s, f (s.relabel b e) = (f s).map r

section

variable {α β : Type} {b : Bool} {e : ErrCode} {r : α → α} {q : β → β}

theorem Blind.of_eq {f : State → Except Fault α} (h : ∀ s, f (s.relabel b e) = f s) : Blind b e id f := by
  intro s
  rw [h s]
  cases f s <;> rfl

/-- A sequence of two blind actions is blind. -/
theorem Blind.bind {f : State → Except Fault α} {g : State → α → Except Fault β} (hf : Blind b e r f)
    (hg : ∀ s x, g (s.relabel b e) (r x) = (g s x).map q) : Blind b e q fun s => f s >>= g s := by
  intro s
  dsimp only
  rw [hf s]
  cases f s with
  | error _ => rfl
  | ok x => exact hg s x

theorem Blind.error {f : State → Except Fault α} (h : Blind b e r f) {s : State} {x : Fault}
    (he : f (s.relabel b e) = .error x) : f s = .error x := by
  rw [h s] at he
  cases hf : f s with
  | error y => rw [hf] at he; exact he
  | ok y => rw [hf] at he; cases he

theorem Blind.ok {f : State → Except Fault α} (h : Blind b e r f) {s : State} {y : α}
    (hy : f (s.relabel b e) = .ok y) : ∃ x, f s = .ok x ∧ y = r x := by
  rw [h s] at hy
  cases hf : f s with
  | error x => rw [hf] at hy; cases hy
  | ok x => rw [hf] at hy; exact ⟨x, rfl, (Except.ok.inj hy).symm⟩

theorem Blind.ok' {f : State → Except Fault α} (h : Blind b e r f) {s : State} {x : α} (hx : f s = .ok x) :
    f (s.relabel b e) = .ok (r x) := by
  rw [h s, hx]; rfl

end

section

variable (b : Bool) (e : ErrCode)

theorem blind_readVector (sp : Space) : Blind b e id (readVector sp) := .of_eq fun _ => by cases sp <;> rfl

theorem blind_readPreamble (sp : Space) : Blind b e id (readPreamble sp) := .of_eq fun _ => by cases sp <;> rfl

theorem blind_readCorrected : Blind b e id readCorrected := .of_eq fun _ => rfl

theorem blind_runDowns : Blind b e (State.relabel b e) runDowns :=
  Blind.bind (r := id) (.of_eq fun _ => rfl) fun _ _ => rfl

theorem blind_runCfoest : Blind b e (State.relabel b e) runCfoest :=
  (blind_readPreamble b e .pre).bind fun s pre =>
    (blind_readVector b e .down).bind (g := fun s down => .ok (s.setCfo (s.nums.cfoest s.n s.nused pre down)))
      (fun _ _ => rfl) s

theorem blind_runStoest : Blind b e (State.relabel b e) runStoest :=
  (blind_readPreamble b e .prec).bind fun s prec =>
    (blind_readVector b e .down).bind (g := fun s down => .ok (s.setSto (s.nums.stoest s.n s.nused prec down)))
      (fun _ _ => rfl) s

theorem blind_estimate : Blind b e (State.relabel b e) estimate := by
  intro s
  have run : Blind b e (State.relabel b e) fun s => runCfoest s >>= fun t => runStoest t >>= fun u => .ok u.setEstDone :=
    (blind_runCfoest b e).bind fun _ t => (blind_runStoest b e).bind (g := fun _ u => .ok u.setEstDone) (fun _ _ => rfl) t
  unfold estimate
  cases hd : s.acq.estDone with
  | true => rw [show (s.relabel b e).acq.estDone = true from hd]; rfl
  | false => rw [show (s.relabel b e).acq.estDone = false from hd]; exact run s

theorem blind_correlate (x : List Sample) (ref : RefSel) :
    Blind b e (Prod.map id (State.relabel b e)) (correlate x ref) :=
  (blind_readVector b e (refSpace ref)).bind fun _ _ => rfl

theorem blind_estimateAndCorrelate (ref : RefSel) :
    Blind b e (Prod.map id (State.relabel b e)) (estimateAndCorrelate ref) :=
  (blind_estimate b e).bind fun _ t =>
    (blind_readCorrected b e).bind (g := fun t z => correlate z ref t) (fun t z => blind_correlate b e z ref t) t

theorem relabel_track (s : State) (bin : Option Nat) (x : List Sample) :
    (s.relabel b e).track bin x = (s.track bin x).relabel b e := by
  unfold State.track
  change (if binsMatch bin s.acq.binPrev then _ else _) = _
  split <;> rfl

/-- The end of a step in `DETECT` (rules R192, R193). -/
def State.endDetect (t : State) : State := if t.acq.matchCnt.toNat + 1 = t.nup then t.enterSync else t.consume t.n

theorem relabel_endDetect (t : State) : (t.relabel b e).endDetect = t.endDetect.relabel b e := by
  unfold State.endDetect
  change (if t.acq.matchCnt.toNat + 1 = t.nup then _ else _) = _
  split <;> rfl

theorem blind_stepDetect : Blind b e (State.relabel b e) stepDetect := by
  have tail (x : List Sample) : Blind b e (State.relabel b e) fun s =>
      correlate x .down s >>= fun bs => .ok (bs.2.track bs.1 x).endDetect :=
    (blind_correlate b e x .down).bind fun _ bs => congrArg Except.ok
      ((congrArg State.endDetect (relabel_track b e bs.2 bs.1 x)).trans (relabel_endDetect b e _))
  exact (blind_readVector b e .sym).bind fun s x => tail x s

theorem blind_stepNetId1 : Blind b e (State.relabel b e) stepNetId1 :=
  (blind_estimateAndCorrelate b e .down).bind fun s bs => by
    change Except.ok (if ignored bs.1 s.n then _ else if nearId bs.1 s.cfg.netId1 then _ else _) =
      Except.ok (State.relabel b e (if ignored bs.1 s.n then _ else if nearId bs.1 s.cfg.netId1 then _ else _))
    split
    · rfl
    · split <;> rfl

theorem blind_stepNetId2 : Blind b e (State.relabel b e) stepNetId2 :=
  (blind_estimateAndCorrelate b e .down).bind fun s bs => by
    change Except.ok (if nearId bs.1 s.cfg.netId2 then _ else _) =
      Except.ok (State.relabel b e (if nearId bs.1 s.cfg.netId2 then _ else _))
    split <;> rfl

theorem blind_stepDownchirp1 : Blind b e (State.relabel b e) stepDownchirp1 :=
  (blind_estimate b e).bind fun _ _ => rfl

theorem blind_stepDownchirp2 : Blind b e (State.relabel b e) stepDownchirp2 :=
  (blind_estimateAndCorrelate b e .up).bind fun _ _ => rfl

theorem blind_stepQuarterDown : Blind b e (State.relabel b e) stepQuarterDown :=
  (blind_estimate b e).bind fun s t => by
    change Except.ok (if t.acq.downVal = nosymWord then _ else _) = _
    split <;> rfl

theorem blind_stepFrac : Blind b e (State.relabel b e) stepFrac := by
  intro s
  have emit : Blind b e (State.relabel b e) stepEmit := (blind_readCorrected b e).bind fun _ _ => rfl
  unfold stepFrac
  change (if s.acq.symCnt.toNat < s.acq.symbNumb.toNat then _ else _) = _
  split
  · exact emit s
  · rfl

theorem blind_stepSync (p : SyncPos) : Blind b e (State.relabel b e) (stepSync p) := by
  cases p with
  | netId1 => exact blind_stepNetId1 b e
  | netId2 => exact blind_stepNetId2 b e
  | downchirp1 => exact blind_stepDownchirp1 b e
  | downchirp2 => exact blind_stepDownchirp2 b e
  | quarterDown => exact blind_stepQuarterDown b e

theorem blind_stepCase : Blind b e (State.relabel b e) stepCase := by
  intro s
  cases hs : s.acq.state with
  | detect => rw [stepCase_detect hs, stepCase_detect (s := s.relabel b e) hs]; exact blind_stepDetect b e s
  | sync => rw [stepCase_sync hs, stepCase_sync (s := s.relabel b e) hs]; exact blind_stepSync b e _ s
  | fracCfoCorrec => rw [stepCase_frac hs, stepCase_frac (s := s.relabel b e) hs]; exact blind_stepFrac b e s

theorem blind_fsmStep : Blind b e (State.relabel b e) fsmStep := by
  intro s
  have count : Blind b e (State.relabel b e) fun s => stepCase s >>= fun t => .ok t.countUp :=
    (blind_stepCase b e).bind fun _ _ => rfl
  exact count s.clearReport

theorem relabel_applyEvent (s : State) (ev : Event) : (s.relabel b e).applyEvent ev = (s.applyEvent ev).relabel b e := by
  unfold State.applyEvent
  change (if s.acq.state = .fracCfoCorrec then _ else _) = State.relabel b e (if s.acq.state = .fracCfoCorrec then _ else _)
  split
  · split <;> rfl
  · rfl

theorem relabel_drainEvents (s : State) : (s.relabel b e).drainEvents = s.drainEvents.relabel b e := by
  have fold (evs : List Event) (t : State) :
      evs.foldl State.applyEvent (t.relabel b e) = (evs.foldl State.applyEvent t).relabel b e := by
    induction evs generalizing t with
    | nil => rfl
    | cons ev evs ih => rw [List.foldl_cons, List.foldl_cons, relabel_applyEvent, ih]
  exact fold s.evq { s with evq := [] }

end

/-! ### `WORK` as unit commands (rule R101) -/

/-- A blind unit command on the block in `TEST` mode with no error. -/
theorem exec_relabel_ok {i : Instr} {u v : State} (hi : unitLevel i = true) (hs : u.started = true)
    (hb : Blind true .none (State.relabel true .none) (runUnit i)) (h : runUnit i u = .ok v) :
    exec i (u.relabel true .none) = .next (v.relabel true .none) :=
  exec_unit_ok (s := u.relabel true .none) hi ⟨hs, rfl⟩ (hb.ok' h)

/-- What the drain of `WORK` leaves is what `DRAIN` leaves in `TEST` mode. -/
theorem exec_drain_test {s : State} (hs : s.started = true) :
    exec .drain { s with test := true } = .next (s.drainEvents.relabel true .none) := by
  have run : runUnit .drain (s.relabel true s.err) = .ok (s.drainEvents.relabel true s.err) :=
    congrArg Except.ok (relabel_drainEvents true s.err s)
  exact exec_unit_ok (s := s.relabel true s.err) rfl ⟨hs, rfl⟩ run

theorem drainEvents_sameMode (s : State) : SameMode s s.drainEvents :=
  (drainEvents_updates s).keeps (fun _ _ => .update) ⟨rfl, rfl, rfl⟩

theorem exec_fdly_test {s : State} (hs : s.started = true) :
    exec .fdly (s.drainEvents.relabel true .none) = .next (s.drainEvents.setTap.relabel true .none) :=
  exec_relabel_ok (i := .fdly) rfl ((drainEvents_sameMode s).1.trans hs) (fun _ => rfl) rfl

theorem n_of_cfg_eq {s t : State} (h : t.cfg = s.cfg) : t.n = s.n := by rw [State.n, h]; rfl

theorem os_of_cfg_eq {s t : State} (h : t.cfg = s.cfg) : t.os = s.os := by rw [State.os, h]; rfl

/-- The progress checks of rule R224, steps 2 and 3. -/
theorem canProgress_iff {s a : State} (hcfg : a.cfg = s.cfg) :
    a.canProgress = true ↔ s.os * (s.n + 2) ≤ a.mail.inAvail.toNat ∧
      ¬(a.acq.state = .fracCfoCorrec ∧ a.acq.symCnt.toNat < a.acq.symbNumb.toNat ∧ a.mail.outCap.toNat < s.n) := by
  rw [State.canProgress, State.winReq, Config.winReq, n_of_cfg_eq hcfg, os_of_cfg_eq hcfg]
  simp only [Bool.and_eq_true, Bool.not_eq_true', decide_eq_true_eq, beq_iff_eq, ← Bool.not_eq_true, and_assoc]

theorem invoke_of_canProgress {s : State} (h : s.drainEvents.canProgress = true) :
    invoke s = runDowns s.drainEvents.setTap >>= fsmStep := if_pos h

theorem execWork_error {s : State} {f : Fault} (hs : s.started = true) (h : invoke s = .error f) :
    exec .work s = .fault f := by
  show hostCommand invoke s = _
  rw [hostCommand, if_pos hs, h]
  rfl

end Sys2Proof.Machine
end

section
/-! The faults of `FSMSTEP` and `WORK`. -/

namespace Sys2Proof.Machine

/-- The report is no operand: a step reads the same after its fields have been cleared. -/
theorem fsmStep_error {s : State} {f : Fault} (h : stepCase s.clearReport = .error f) : fsmStep s = .error f :=
  bind_error_left h

theorem runCfoest_error_clearReport {s : State} {f : Fault} (h : runCfoest s = .error f) :
    runCfoest s.clearReport = .error f := by
  obtain hpre | ⟨pre, hpre, h⟩ := (bind_error _ _ _).1 h
  · exact bind_error_left (x := readPreamble .pre s.clearReport) hpre
  · obtain hdown | ⟨down, hdown, h⟩ := (bind_error _ _ _).1 h
    · exact bind_error_right (x := readPreamble .pre s.clearReport) hpre
        (bind_error_left (x := readVector .down s.clearReport) hdown)
    · cases h

theorem estimate_done {s : State} (h : s.acq.estDone = true) : estimate s = .ok s := if_pos h

theorem estimate_error {s : State} {f : Fault} (hd : s.acq.estDone = false) (h : runCfoest s = .error f) :
    estimate s = .error f := by
  rw [estimate, hd, if_neg nofun]
  exact bind_error_left h

/-- Every position of `SYNC` begins with the prologue. -/
theorem stepSync_estimate_error {s : State} {f : Fault} (h : estimate s = .error f) (p : SyncPos) :
    stepSync p s = .error f := by
  have correlated (ref : RefSel) : estimateAndCorrelate ref s = .error f := bind_error_left h
  cases p with
  | netId1 | netId2 => exact bind_error_left (correlated .down)
  | downchirp2 => exact bind_error_left (correlated .up)
  | downchirp1 | quarterDown => exact bind_error_left h

/-- The reading order past the prologue: `SYM`, `CORR`, the reference (log 6). -/
theorem estimateAndCorrelate_faults {s : State} (hd : s.acq.estDone = true) (ref : RefSel) :
    (¬Written s .sym s.n → estimateAndCorrelate ref s = .error (.unwritten .sym)) ∧
    (Written s .sym s.n → ¬Written s .corr s.n → estimateAndCorrelate ref s = .error (.unwritten .corr)) ∧
    (Written s .sym s.n → Written s .corr s.n → ¬Written s (refSpace ref) s.n →
      estimateAndCorrelate ref s = .error (.unwritten (refSpace ref))) := by
  have est := estimate_done hd
  exact ⟨fun h => bind_error_right est (bind_error_left (readCorrected_error_sym h)),
    fun h hc => bind_error_right est (bind_error_left (readCorrected_error_corr h hc)),
    fun h hc hr => bind_error_right est (bind_error_right (readCorrected_written h hc) (correlate_error hr))⟩

/-- The reference a position of `SYNC` correlates against (rules R195, R196, R198). -/
def SyncPos.ref (p : SyncPos) : RefSel := if p = .downchirp2 then .up else .down

theorem stepSync_correlate_error {s : State} {f : Fault} {p : SyncPos} (hp : p = .netId1 ∨ p = .netId2 ∨ p = .downchirp2)
    (h : estimateAndCorrelate p.ref s = .error f) : stepSync p s = .error f := by
  obtain rfl | rfl | rfl := hp <;> exact bind_error_left h

theorem refSpace_ref (p : SyncPos) : refSpace p.ref = if p = .downchirp2 then .up else .down := by
  cases p <;> rfl

section

variable {s : State}

theorem fsmstep_detect_faults (hstate : s.acq.state = .detect) :
    (¬Written s .sym s.n → fsmStep s = .error (.unwritten .sym)) ∧
    (Written s .sym s.n → ¬Written s .down s.n → fsmStep s = .error (.unwritten .down)) := by
  have hcase : stepCase s.clearReport = stepDetect s.clearReport := stepCase_detect hstate
  refine ⟨fun h => fsmStep_error (hcase.trans ?_), fun h hd => fsmStep_error (hcase.trans ?_)⟩
  · exact bind_error_left (readVector_error (s := s.clearReport) h)
  · exact bind_error_right (readVector_written (s := s.clearReport) h)
      (bind_error_left (correlate_error (s := s.clearReport) (ref := .down) hd))

theorem fsmstep_estimate_faults {f : Fault} (hstate : s.acq.state = .sync) (hd : s.acq.estDone = false)
    (h : runCfoest s = .error f) : fsmStep s = .error f := by
  have hcase : stepCase s.clearReport = stepSync s.acq.syncPos s.clearReport := stepCase_sync hstate
  have hest : estimate s.clearReport = .error f := estimate_error hd (runCfoest_error_clearReport h)
  exact fsmStep_error (hcase.trans (stepSync_estimate_error hest _))

theorem fsmstep_sync_faults (hstate : s.acq.state = .sync) (hd : s.acq.estDone = true)
    (hp : s.acq.syncPos = .netId1 ∨ s.acq.syncPos = .netId2 ∨ s.acq.syncPos = .downchirp2) :
    (¬Written s .sym s.n → fsmStep s = .error (.unwritten .sym)) ∧
    (Written s .sym s.n → ¬Written s .corr s.n → fsmStep s = .error (.unwritten .corr)) ∧
    (Written s .sym s.n → Written s .corr s.n → ¬Written s (refSpace s.acq.syncPos.ref) s.n →
      fsmStep s = .error (.unwritten (refSpace s.acq.syncPos.ref))) := by
  have hcase : stepCase s.clearReport = stepSync s.acq.syncPos s.clearReport := stepCase_sync hstate
  have fault {f : Fault} (h : estimateAndCorrelate s.acq.syncPos.ref s.clearReport = .error f) : fsmStep s = .error f :=
    fsmStep_error (hcase.trans (stepSync_correlate_error hp h))
  obtain ⟨hsym, hcorr, href⟩ := estimateAndCorrelate_faults (s := s.clearReport) hd s.acq.syncPos.ref
  refine ⟨fun h => fault (hsym h), fun h hc => fault (hcorr h hc), fun h hc hr => fault (href h hc ?_)⟩
  exact fun hw => hr (by cases hq : s.acq.syncPos.ref <;> rw [hq] at hw <;> exact hw)

theorem fsmstep_frac_faults (hstate : s.acq.state = .fracCfoCorrec) (hc : s.acq.symCnt.toNat < s.acq.symbNumb.toNat) :
    (¬Written s .sym s.n → fsmStep s = .error (.unwritten .sym)) ∧
    (Written s .sym s.n → ¬Written s .corr s.n → fsmStep s = .error (.unwritten .corr)) := by
  have hcase : stepCase s.clearReport = stepEmit s.clearReport :=
    (stepCase_frac (s := s.clearReport) hstate).trans (if_pos hc)
  refine ⟨fun h => fsmStep_error (hcase.trans ?_), fun h hd => fsmStep_error (hcase.trans ?_)⟩
  · exact bind_error_left (readCorrected_error_sym (s := s.clearReport) h)
  · exact bind_error_left (readCorrected_error_corr (s := s.clearReport) h hd)

/-- `WORK` that passes its checks faults where its downsampler or its step does. -/
theorem work_faults {a b : State} (hs : s.started = true) (ha : exec .drain { s with test := true } = .next a)
    (hwin : s.os * (s.n + 2) ≤ a.mail.inAvail.toNat)
    (hroom : ¬(a.acq.state = .fracCfoCorrec ∧ a.acq.symCnt.toNat < a.acq.symbNumb.toNat ∧ a.mail.outCap.toNat < s.n))
    (hb : exec .fdly a = .next b) :
    (∀ f : Fault, exec .downs b = .fault f → exec .work s = .fault f) ∧
    ∀ (c : State) (f : Fault), exec .downs b = .next c → exec .fsmstep c = .fault f → exec .work s = .fault f := by
  obtain ⟨hstarted, -, hcfg⟩ := drainEvents_sameMode s
  rw [exec_drain_test hs] at ha
  obtain rfl := Host.Outcome.next.inj ha
  rw [exec_fdly_test hs] at hb
  obtain rfl := Host.Outcome.next.inj hb
  have progress : s.drainEvents.canProgress = true := (canProgress_iff hcfg).2 ⟨hwin, hroom⟩
  have work {f : Fault} (h : runDowns s.drainEvents.setTap >>= fsmStep = .error f) : exec .work s = .fault f :=
    execWork_error hs ((invoke_of_canProgress progress).trans h)
  have htest : Testing (s.drainEvents.setTap.relabel true .none) := ⟨hstarted.trans hs, rfl⟩
  refine ⟨fun f h => work (bind_error_left ?_), fun c f hc h => ?_⟩
  · exact (blind_runDowns true .none).error (runUnit_of_fault (i := .downs) rfl htest h)
  · obtain ⟨u, hu, rfl⟩ := runUnit_of_next (i := .downs) rfl htest hc
    obtain ⟨v, hv, rfl⟩ := (blind_runDowns true .none).ok hu
    refine work (bind_error_right hv ((blind_fsmStep true .none).error ?_))
    have hvtest : Testing ((v.relabel true .none).setErr .none) := by
      obtain ⟨-, rfl⟩ := (runDowns_ok _ _).1 hv
      exact htest
    exact runUnit_of_fault (i := .fsmstep) rfl hvtest h

end

/-- Settles O33: each step reads `SYM`, `CORR` and its reference in this order, after the prologue; `WORK` is the downsampler
and then the step. -/
theorem stepsOnUnwrittenOperandsFault : Obligations.StepsOnUnwrittenOperandsFault := by
  refine ⟨fun s ht => ⟨fun hstate => ?_, fun hstate hd f h => ?_, fun hstate hd hp => ?_, fun hstate hc => ?_⟩,
    fun s a b hs ha hwin hroom hb => work_faults hs ha hwin hroom hb⟩
  · obtain ⟨hsym, hdown⟩ := fsmstep_detect_faults hstate
    exact ⟨fun h => exec_unit_error (i := .fsmstep) rfl ht (hsym h),
      fun h hd => exec_unit_error (i := .fsmstep) rfl ht (hdown h hd)⟩
  · have hcfoest : runCfoest s = .error f := runUnit_of_fault (i := .cfoest) rfl ht h
    exact exec_unit_error (i := .fsmstep) rfl ht (fsmstep_estimate_faults hstate hd hcfoest)
  · obtain ⟨hsym, hcorr, href⟩ := fsmstep_sync_faults hstate hd hp
    rw [refSpace_ref] at href
    exact ⟨fun h => exec_unit_error (i := .fsmstep) rfl ht (hsym h),
      fun h hc => exec_unit_error (i := .fsmstep) rfl ht (hcorr h hc),
      fun h hc hr => exec_unit_error (i := .fsmstep) rfl ht (href h hc hr)⟩
  · obtain ⟨hsym, hcorr⟩ := fsmstep_frac_faults hstate hc
    exact ⟨fun h => exec_unit_error (i := .fsmstep) rfl ht (hsym h),
      fun h hd => exec_unit_error (i := .fsmstep) rfl ht (hcorr h hd)⟩

end Sys2Proof.Machine
end

section
/-! The protocol invariant (rule R202), in either mode. `Running` is taken apart into what it says of the configuration and
the chirps, of the acquisition context, of the report, and of written elements, since each operation touches one of these. -/

namespace Sys2Proof.Machine

/-! ### Written elements -/

theorem Mem.elem_isSome_iff (m : Mem) (k : Nat) :
    (m.elem k).isSome = true ↔ (m.load (2 * k)).isSome = true ∧ (m.load (2 * k + 1)).isSome = true := by
  change (match m.load (2 * k), m.load (2 * k + 1) with
    | some re, some im => some (re, im)
    | _, _ => none).isSome = true ↔ _
  cases m.load (2 * k) <;> cases m.load (2 * k + 1) <;> simp

/-- A store unwrites nothing. -/
theorem Mem.written_store {m : Mem} {n : Nat} (h : m.written (indices n) = true) (off : Nat) (ws : List Word) :
    (m.store off ws).written (indices n) = true := by
  have load {a : Nat} (ha : (m.load a).isSome = true) : ((m.store off ws).load a).isSome = true := by
    rw [Mem.load_store]
    split
    · simp; omega
    · exact ha
  rw [Mem.written_indices_iff] at h ⊢
  intro k hk
  obtain ⟨re, im⟩ := (Mem.elem_isSome_iff m k).1 (h k hk)
  exact (Mem.elem_isSome_iff _ k).2 ⟨load re, load im⟩

/-- Elements stored right behind the written ones are written. -/
theorem Mem.written_store_append {m : Mem} {i n : Nat} (h : m.written (indices i) = true) (xs : List Sample)
    (hn : n ≤ i + xs.length) : (m.store (2 * i) (wordsOf xs)).written (indices n) = true := by
  rw [Mem.written_indices_iff] at h ⊢
  intro k hk
  rw [Mem.elem_store]
  split
  · simp; omega
  · exact h k (by omega)

section

variable {s : State} {sp : Space} {n : Nat}

theorem Written.mono {m : Nat} (h : Written s sp n) (hm : m ≤ n) : Written s sp m := by
  unfold Written at h ⊢
  rw [Mem.written_indices_iff] at h ⊢
  exact fun k hk => h k (by omega)

theorem Written.setMem (h : Written s sp n) (sp' : Space) (off : Nat) (ws : List Word) :
    Written (s.setMem sp' ((s.mem sp').store off ws)) sp n := by
  unfold Written at h ⊢
  rw [State.setMem_mem]
  split
  · next heq => subst heq; exact Mem.written_store h off ws
  · exact h

theorem Written.storeElems (h : Written s sp n) (sp' : Space) (i : Nat) (xs : List Sample) :
    Written (s.storeElems sp' i xs) sp n := h.setMem sp' _ _

theorem written_zero : Written s sp 0 := rfl

theorem written_storeElems_append {i : Nat} (h : Written s sp i) (xs : List Sample) (hn : n ≤ i + xs.length) :
    Written (s.storeElems sp i xs) sp n := by
  unfold Written at h ⊢
  rw [State.storeElems_mem, if_pos rfl]
  exact Mem.written_store_append h xs hn

theorem Written.vec_length (h : Written s sp n) : (s.vec sp n).length = n := by
  rw [State.vec, Mem.values_length _ _ h, indices_length]

end

/-! ### The sizes of a valid configuration -/

/-- The ranges of the parameters of a valid configuration (rule R35). -/
structure Sized (s : State) : Prop where
  n_ge : 128 ≤ s.n
  n_le : s.n ≤ 4096
  n_four : s.n % 4 = 0
  n_dvd : s.n ∣ 2 ^ 64
  os_pos : 1 ≤ s.os
  os_le : s.os ≤ 16
  nup_ge : 3 ≤ s.nup
  nup_le : s.nup ≤ 32
  nused_pos : 1 ≤ s.nused
  nused_lt : s.nused + 1 ≤ s.nup

theorem sized_of_valid {s : State} (h : s.cfg.valid = true) : Sized s := by
  obtain ⟨⟨sf_ge, sf_le⟩, ⟨os_pos, os_le⟩, ⟨nup_ge, nup_le⟩, ⟨nused_pos, nused_lt⟩, -⟩ := s.cfg.valid_iff.1 h
  have hn : s.n = 2 ^ s.cfg.sf.toNat := rfl
  have n_ge : 2 ^ 7 ≤ s.n := hn ▸ Nat.pow_le_pow_right (by decide) sf_ge
  have n_le : s.n ≤ 2 ^ 12 := hn ▸ Nat.pow_le_pow_right (by decide) sf_le
  have n_four : 2 ^ 2 ∣ s.n := hn ▸ Nat.pow_dvd_pow 2 (by omega)
  have n_dvd : s.n ∣ 2 ^ 64 := hn ▸ Nat.pow_dvd_pow 2 (by omega)
  exact ⟨n_ge, n_le, Nat.mod_eq_zero_of_dvd n_four, n_dvd, os_pos, os_le, nup_ge, nup_le, nused_pos,
    by unfold State.nused State.nup; omega⟩

theorem n_pos (s : State) : 0 < s.n := Nat.two_pow_pos _

/-! ### The parts of `Running` -/

/-- The configuration and the reference chirps. -/
structure Ready (s : State) : Prop where
  valid : s.cfg.valid = true
  up : Holds s .up 0 (s.nums.gen s.cfg.sf.toNat 1).1
  down : Holds s .down 0 (s.nums.gen s.cfg.sf.toNat 1).2

/-- The acquisition context. -/
structure Tracking (s : State) : Prop where
  detect : s.acq.state = .detect → InDetect s
  tracked : s.acq.state ≠ .detect → Tracked s
  sync : s.acq.state = .sync → InSync s
  frac : s.acq.state = .fracCfoCorrec → InFrac s
  binPrev : binOrNosym s.acq.binPrev s.n
  downVal : binOrNosym s.acq.downVal s.n
  netIdOff : s.acq.netIdOff = 0 ∨ s.acq.netIdOff = 1 ∨ s.acq.netIdOff = intWord (-1)

/-- The report and the output count. -/
structure Reported (s : State) : Prop where
  consumed : ∃ c : Nat, c ≤ s.n + 1 ∧ s.report.consumed.toNat = s.os * c
  produced : s.report.produced = 0 ∨ s.report.produced.toNat = s.n
  outCount : s.count.outCount.toNat % s.n = 0

section

variable {s : State}

theorem Running.ready (h : Running s) : Ready s := ⟨h.valid, h.up, h.down⟩

theorem Running.tracking (h : Running s) : Tracking s :=
  ⟨h.detect, h.tracked, h.sync, h.frac, h.binPrev, h.downVal, h.netIdOff⟩

theorem Running.reported (h : Running s) : Reported s := ⟨h.consumed, h.produced, h.outCount⟩

theorem Running.sized (h : Running s) : Sized s := sized_of_valid h.valid

theorem running_of_parts (r : Ready s) (t : Tracking s) (p : Reported s) (corr : Written s .corr s.n)
    (run : Written s .pre (s.acq.matchCnt.toNat * s.n)) : Running s :=
  { valid := r.valid, up := r.up, down := r.down, corr := corr, run := run, detect := t.detect, tracked := t.tracked
    sync := t.sync, frac := t.frac, binPrev := t.binPrev, downVal := t.downVal, netIdOff := t.netIdOff
    consumed := p.consumed, produced := p.produced, outCount := p.outCount }

theorem Tracking.of_sync (hs : s.acq.state = .sync) (tracked : Tracked s) (sync : InSync s) (binPrev : binOrNosym s.acq.binPrev s.n)
    (downVal : binOrNosym s.acq.downVal s.n)
    (netIdOff : s.acq.netIdOff = 0 ∨ s.acq.netIdOff = 1 ∨ s.acq.netIdOff = intWord (-1)) : Tracking s where
  detect h := by rw [hs] at h; cases h
  tracked _ := tracked
  sync _ := sync
  frac h := by rw [hs] at h; cases h
  binPrev := binPrev
  downVal := downVal
  netIdOff := netIdOff

theorem Tracking.of_frac (hs : s.acq.state = .fracCfoCorrec) (tracked : Tracked s) (frac : InFrac s)
    (binPrev : binOrNosym s.acq.binPrev s.n) (downVal : binOrNosym s.acq.downVal s.n)
    (netIdOff : s.acq.netIdOff = 0 ∨ s.acq.netIdOff = 1 ∨ s.acq.netIdOff = intWord (-1)) : Tracking s where
  detect h := by rw [hs] at h; cases h
  tracked _ := tracked
  sync h := by rw [hs] at h; cases h
  frac _ := frac
  binPrev := binPrev
  downVal := downVal
  netIdOff := netIdOff

theorem Tracking.of_detect (hs : s.acq.state = .detect) (detect : InDetect s) (binPrev : binOrNosym s.acq.binPrev s.n) :
    Tracking s where
  detect _ := detect
  tracked h := absurd hs h
  sync h := by rw [hs] at h; cases h
  frac h := by rw [hs] at h; cases h
  binPrev := binPrev
  downVal := .inl detect.downVal
  netIdOff := .inl detect.netIdOff

end

/-! ### What the parts depend on -/

/-- What `Ready` speaks of. -/
def State.chirps (s : State) : Cfg × NumSel × Mem × Mem := (s.cfg, s.num, s.mems.up, s.mems.down)

/-- What `Tracking` speaks of: the fractional offsets are left out. -/
def State.context (s : State) : Cfg × Acq := (s.cfg, { s.acq with lambdaCfo := 0, lambdaSto := 0 })

/-- What `Reported` speaks of. -/
def State.results (s : State) : Cfg × Word × Word × BitVec 64 :=
  (s.cfg, s.report.consumed, s.report.produced, s.count.outCount)

section

variable {s t : State}

theorem Holds.congr {sp : Space} {i : Nat} {xs : List Sample} (h : Holds s sp i xs) (e : t.mem sp = s.mem sp) :
    Holds t sp i xs := by
  unfold Holds
  rwa [e]

theorem Ready.congr (h : Ready s) (e : t.chirps = s.chirps) : Ready t := by
  simp only [State.chirps, Prod.mk.injEq] at e
  obtain ⟨cfg, num, up, down⟩ := e
  have nums : t.nums = s.nums := by rw [State.nums, num]; rfl
  refine ⟨cfg ▸ h.valid, ?_, ?_⟩ <;> rw [nums, cfg]
  · exact h.up.congr up
  · exact h.down.congr down

theorem Reported.congr (h : Reported s) (e : t.results = s.results) : Reported t := by
  simp only [State.results, Prod.mk.injEq] at e
  obtain ⟨cfg, consumed, produced, outCount⟩ := e
  obtain ⟨c, hc, heq⟩ := h.consumed
  refine ⟨⟨c, ?_, ?_⟩, ?_, ?_⟩
  · rwa [n_of_cfg_eq cfg]
  · rwa [os_of_cfg_eq cfg, consumed]
  · rw [n_of_cfg_eq cfg, produced]; exact h.produced
  · rw [n_of_cfg_eq cfg, outCount]; exact h.outCount

/-- The plainest state with an acquisition context. -/
def contextState (c : Cfg × Acq) : State := { State.reset with cfg := c.1, acq := c.2 }

theorem inDetect_context (s : State) : InDetect (contextState s.context) ↔ InDetect s :=
  ⟨fun ⟨a, b, c, d, e, f, g, h, i⟩ => ⟨a, b, c, d, e, f, g, h, i⟩, fun ⟨a, b, c, d, e, f, g, h, i⟩ => ⟨a, b, c, d, e, f, g, h, i⟩⟩

theorem tracked_context (s : State) : Tracked (contextState s.context) ↔ Tracked s :=
  ⟨fun ⟨a, b⟩ => ⟨a, b⟩, fun ⟨a, b⟩ => ⟨a, b⟩⟩

theorem inSync_context (s : State) : InSync (contextState s.context) ↔ InSync s :=
  ⟨fun ⟨a, b, c, d, e, f⟩ => ⟨a, b, c, d, e, f⟩, fun ⟨a, b, c, d, e, f⟩ => ⟨a, b, c, d, e, f⟩⟩

theorem inFrac_context (s : State) : InFrac (contextState s.context) ↔ InFrac s :=
  ⟨fun ⟨a, b, c, d⟩ => ⟨a, b, c, d⟩, fun ⟨a, b, c, d⟩ => ⟨a, b, c, d⟩⟩

theorem tracking_context (s : State) : Tracking (contextState s.context) ↔ Tracking s :=
  ⟨fun h => ⟨fun e => (inDetect_context s).1 (h.detect e), fun e => (tracked_context s).1 (h.tracked e),
      fun e => (inSync_context s).1 (h.sync e), fun e => (inFrac_context s).1 (h.frac e), h.binPrev, h.downVal, h.netIdOff⟩,
    fun h => ⟨fun e => (inDetect_context s).2 (h.detect e), fun e => (tracked_context s).2 (h.tracked e),
      fun e => (inSync_context s).2 (h.sync e), fun e => (inFrac_context s).2 (h.frac e), h.binPrev, h.downVal, h.netIdOff⟩⟩

theorem Tracking.congr (h : Tracking s) (e : t.context = s.context) : Tracking t :=
  (tracking_context t).1 (e ▸ (tracking_context s).2 h)

/-- A state that agrees runs too, if the elements `Running` asks for are written. -/
theorem Running.congr (h : Running s) (chirps : t.chirps = s.chirps) (context : t.context = s.context)
    (results : t.results = s.results) (corr : Written t .corr s.n)
    (run : Written t .pre (s.acq.matchCnt.toNat * s.n)) : Running t := by
  have hn : t.n = s.n := n_of_cfg_eq (congrArg Prod.fst context)
  have hcnt : t.acq.matchCnt = s.acq.matchCnt := congrArg (fun c => c.2.matchCnt) context
  exact running_of_parts (h.ready.congr chirps) (h.tracking.congr context) (h.reported.congr results) (hn ▸ corr)
    (hcnt ▸ hn ▸ run)

end

/-! ### Operations that keep `Running` -/

theorem toNat_ofNat_n {s : State} (hz : Sized s) : (BitVec.ofNat 32 s.n).toNat = s.n := by
  have := hz.n_le
  rw [BitVec.toNat_ofNat, Nat.mod_eq_of_lt (by omega)]

theorem toNat_intWord {v : Nat} (h : v < 2 ^ 32) : (intWord v).toNat = v := by
  rw [intWord, BitVec.toNat_ofInt]
  omega

section

variable {s : State}

theorem holds_storeElems (sp : Space) (xs : List Sample) : Holds (s.storeElems sp 0 xs) sp 0 xs := by
  intro j x hx
  obtain ⟨hj, -⟩ := List.getElem?_eq_some_iff.1 hx
  rw [State.storeElems_mem, if_pos rfl, Mem.elem_store, if_pos ⟨by omega, by omega⟩]
  simpa using hx

theorem ready_generate (valid : s.cfg.valid = true) : Ready s.generate where
  valid := valid
  up := holds_storeElems (s := s) .up _
  down := holds_storeElems (s := s.storeElems .up 0 (s.nums.gen s.cfg.sf.toNat 1).1) .down _

theorem Running.generate (h : Running s) : Running s.generate :=
  have corr : Written s.generate .corr s.n := (h.corr.storeElems _ _ _).storeElems _ _ _
  have run : Written s.generate .pre (s.acq.matchCnt.toNat * s.n) := (h.run.storeElems _ _ _).storeElems _ _ _
  running_of_parts (ready_generate h.valid) (h.tracking.congr rfl)
    (h.reported.congr rfl) corr run

theorem Running.clearReport (h : Running s) : Running s.clearReport :=
  running_of_parts ⟨h.valid, h.up, h.down⟩ (h.tracking.congr rfl)
    ⟨h.consumed, .inl rfl, h.outCount⟩ h.corr h.run

/-- A consumed amount of up to `N + 1` working samples is a legal report. -/
theorem Running.consume (h : Running s) {c : Nat} {v : Int} (hv : v = c) (hc : c ≤ s.n + 1) : Running (s.consume v) := by
  have hz := h.sized
  have hos := hz.os_le
  have hn := hz.n_le
  have hword : (intWord (s.os * v)).toNat = s.os * c := by
    have hle : s.os * c ≤ 16 * 4097 := Nat.mul_le_mul hos (by omega)
    rw [hv, ← Nat.cast_mul, toNat_intWord (by omega)]
  exact running_of_parts ⟨h.valid, h.up, h.down⟩ (h.tracking.congr rfl)
    ⟨⟨c, hc, hword⟩, h.produced, h.outCount⟩ h.corr h.run

theorem Running.consume_n (h : Running s) : Running (s.consume s.n) := h.consume rfl (by omega)

theorem Running.noProgress (h : Running s) : Running s.noProgress :=
  running_of_parts ⟨h.valid, h.up, h.down⟩ (h.tracking.congr rfl)
    ⟨⟨0, by omega, rfl⟩, .inl rfl, h.outCount⟩ h.corr h.run

theorem Running.countUp (h : Running s) : Running s.countUp := by
  refine running_of_parts ⟨h.valid, h.up, h.down⟩ (h.tracking.congr rfl)
    ⟨h.consumed, h.produced, ?_⟩ h.corr h.run
  show (s.count.outCount + s.report.produced.setWidth 64).toNat % s.n = 0
  rw [toNat_add_setWidth, Nat.mod_mod_of_dvd _ h.sized.n_dvd, Nat.add_mod, h.outCount]
  obtain hp | hp := h.produced
  · rw [hp]; simp
  · rw [hp]; simp

theorem inDetect_neutral (hz : Sized s) (h : s.acq = Acq.neutral s.cfg.hdrSyms) : InDetect s := by
  have two : 1 < s.nup := Nat.lt_of_succ_lt hz.nup_ge
  constructor <;> rw [h] <;> simp [Acq.neutral, two]

theorem tracking_neutral (hz : Sized s) (h : s.acq = Acq.neutral s.cfg.hdrSyms) : Tracking s :=
  .of_detect (by rw [h]; rfl) (inDetect_neutral hz h) (.inl (by rw [h]; rfl))

theorem Running.resync (h : Running s) (c : Cause) : Running (s.resync c) :=
  have corr : Written (s.resync c) .corr s.n := h.corr.storeElems .corr 0 (List.replicate s.n s.nums.cone)
  running_of_parts ⟨h.valid, h.up, h.down⟩ (tracking_neutral (s := s.resync c) (sized_of_valid h.valid) rfl) ⟨h.consumed, h.produced, h.outCount⟩ corr
    (written_zero.mono (by simp [Acq.neutral]))

/-- `START` on a valid configuration. -/
theorem running_construct (m : Mode) (valid : s.cfg.valid = true) : Running (s.construct m) := by
  have hz := sized_of_valid valid
  have ready := ready_generate valid
  have ones : Written (s.generate.storeElems .corr 0 (List.replicate s.n s.nums.cone)) .corr s.n :=
    written_storeElems_append written_zero _ (by simp)
  have corr : Written (s.construct m) .corr s.n := ones
  exact running_of_parts ⟨valid, ready.up, ready.down⟩ (tracking_neutral (s := s.construct m) (sized_of_valid valid) rfl)
    ⟨⟨0, by omega, rfl⟩, .inl rfl, by simp [State.construct]⟩ corr (written_zero.mono (by simp [State.construct, Acq.neutral]))

theorem Running.setCorrelator (h : Running s) (be : Option Nat × Word) : Running (s.setCorrelator be) :=
  h.congr rfl rfl rfl h.corr h.run

theorem Running.setCfo (h : Running s) (r : CfoResult Word) : Running (s.setCfo r) := by
  have stored {sp : Space} {n : Nat} (hw : Written s sp n) : Written (s.setCfo r) sp n := by
    have peak : Written (s.setPeak r.peak r.ka) sp n := by cases sp <;> exact hw
    have stores := (peak.storeElems .prec 0 r.prec).storeElems .corr 0 r.corr
    cases sp <;> exact stores
  exact h.congr rfl rfl rfl (stored h.corr) (stored h.run)

theorem Running.cfoest {t : State} (h : Running s) (hrun : runCfoest s = .ok t) : Running t := by
  obtain ⟨-, -, rfl⟩ := (runCfoest_ok s t).1 hrun
  exact h.setCfo _

theorem Running.stoest {t : State} (h : Running s) (hrun : runStoest s = .ok t) : Running t := by
  obtain ⟨-, -, rfl⟩ := (runStoest_ok s t).1 hrun
  exact h.congr rfl rfl rfl h.corr h.run

theorem Running.downs {t : State} (h : Running s) (hrun : runDowns s = .ok t) : Running t := by
  obtain ⟨-, rfl⟩ := (runDowns_ok s t).1 hrun
  exact h.congr rfl rfl rfl (h.corr.storeElems _ _ _) (h.run.storeElems _ _ _)

theorem Running.applyEvent (h : Running s) (ev : Event) : Running (s.applyEvent ev) := by
  unfold State.applyEvent
  split
  · next hstate =>
    split
    · exact h.resync _
    · have frac := h.frac hstate
      have tracked := h.tracked (by rw [hstate]; exact nofun)
      exact running_of_parts ⟨h.valid, h.up, h.down⟩
        (.of_frac hstate ⟨tracked.count, tracked.mean⟩ ⟨frac.position, frac.estDone, frac.downVal, frac.cfoInt⟩ h.binPrev
          h.downVal h.netIdOff)
        ⟨h.consumed, h.produced, h.outCount⟩ h.corr h.run
  · exact h

theorem Running.drainEvents (h : Running s) : Running s.drainEvents := by
  have fold (evs : List Event) (t : State) (ht : Running t) : Running (evs.foldl State.applyEvent t) := by
    induction evs generalizing t with
    | nil => exact ht
    | cons ev evs ih => exact ih _ (ht.applyEvent ev)
  exact fold s.evq { s with evq := [] } (h.congr rfl rfl rfl h.corr h.run)

end

end Sys2Proof.Machine
end

section
/-! The steps of the state machine keep `Running`, position by position, and so every step keeps the protocol invariant. -/

namespace Sys2Proof.Machine

/-! ### Correlator results -/

theorem toNat_ofNat_lt {k n : Nat} (h : k < n) (hn : n ≤ 4096) : (BitVec.ofNat 32 k).toNat = k := by
  rw [BitVec.toNat_ofNat, Nat.mod_eq_of_lt (by omega)]

theorem binOrNosym_binWord {b : Option Nat} {n : Nat} (h : ∀ k, b = some k → k < n) (hn : n ≤ 4096) :
    binOrNosym (binWord b) n := by
  cases b with
  | none => exact .inl rfl
  | some k =>
    have hk := h k rfl
    exact .inr (by rw [binWord, toNat_ofNat_lt hk hn]; exact hk)

/-- A bin the correlator finds in a vector of the working length lies below `N`. -/
theorem demod_bin_lt {s : State} {x r : List Sample} (hx : x.length = s.n) (hr : r.length = s.n) (k : Nat)
    (h : (s.nums.demod x r).1 = some k) : k < s.n := by
  have hne : x ≠ [] := List.length_pos_iff.1 (hx ▸ n_pos s)
  exact hx ▸ s.demod_lt x r k hne (hr.trans hx.symm) h

theorem correlate_spec {s u : State} {x : List Sample} {ref : RefSel} {b : Option Nat} (hx : x.length = s.n)
    (h : correlate x ref s = .ok (b, u)) :
    (∃ be : Option Nat × Word, be.1 = b ∧ u = s.setCorrelator be) ∧ ∀ k, b = some k → k < s.n := by
  obtain ⟨hw, heq⟩ := (correlate_ok _ _ _ _).1 h
  obtain ⟨rfl, rfl⟩ := Prod.mk.inj heq
  exact ⟨⟨_, rfl, rfl⟩, demod_bin_lt hx (Written.vec_length (s := s) hw)⟩

theorem deviation_cases {b : Option Nat} {id : Nat} (h : nearId b id = true) :
    intWord (deviation b id) = 0 ∨ intWord (deviation b id) = 1 ∨ intWord (deviation b id) = intWord (-1) := by
  cases b with
  | none => cases h
  | some k =>
    have hnear : ((k : Int) - id).natAbs ≤ 1 := of_decide_eq_true h
    have hdev : deviation (some k) id = 0 ∨ deviation (some k) id = 1 ∨ deviation (some k) id = -1 := by
      simp only [deviation, Option.getD_some]; omega
    obtain hdev | hdev | hdev := hdev <;> rw [hdev] <;> decide

/-! ### `SYNC` -/

section

variable {s : State}

theorem Running.setEstDone (h : Running s) (hs : s.acq.state = .sync) : Running s.setEstDone := by
  have sync := h.sync hs
  have tracked := h.tracked (by rw [hs]; exact nofun)
  exact running_of_parts ⟨h.valid, h.up, h.down⟩
    (.of_sync hs ⟨tracked.count, tracked.mean⟩
      ⟨nofun, sync.deviation, sync.downVal, sync.cfoInt, sync.symCnt, sync.symbNumb⟩ h.binPrev h.downVal h.netIdOff)
    ⟨h.consumed, h.produced, h.outCount⟩ h.corr h.run

/-- A running block past the prologue at the position of `s`. -/
structure Estimated (s t : State) : Prop where
  running : Running t
  state : t.acq.state = .sync
  position : t.acq.syncPos = s.acq.syncPos
  estDone : t.acq.estDone = true
  cfg : t.cfg = s.cfg

theorem runCfoest_eq {t : State} (h : runCfoest s = .ok t) : ∃ r, t = s.setCfo r := by
  obtain ⟨-, -, ht⟩ := (runCfoest_ok s t).1 h
  exact ⟨_, ht⟩

theorem runStoest_eq {t : State} (h : runStoest s = .ok t) : ∃ r, t = s.setSto r := by
  obtain ⟨-, -, ht⟩ := (runStoest_ok s t).1 h
  exact ⟨_, ht⟩

theorem Running.estimate {t : State} (h : Running s) (hs : s.acq.state = .sync) (hrun : estimate s = .ok t) :
    Estimated s t := by
  obtain ⟨hd, rfl⟩ | ⟨-, u, v, hu, hv, rfl⟩ := (estimate_ok s t).1 hrun
  · exact ⟨h, hs, rfl, hd, rfl⟩
  · have running := (h.cfoest hu).stoest hv
    obtain ⟨r, rfl⟩ := runCfoest_eq hu
    obtain ⟨q, rfl⟩ := runStoest_eq hv
    exact ⟨running.setEstDone (by simpa using hs), by simpa using hs, by simp, rfl, by simp⟩

theorem Estimated.n_eq {t : State} (h : Estimated s t) : t.n = s.n := n_of_cfg_eq h.cfg

theorem readCorrected_length {z : List Sample} (h : readCorrected s = .ok z) : z.length = s.n := by
  obtain ⟨hsym, hcorr, rfl⟩ := (readCorrected_ok s z).1 h
  rw [Num.hadamard_length, Mem.values_length _ _ hsym, Mem.values_length _ _ hcorr, indices_length, Nat.min_self]

theorem Running.estimateAndCorrelate {ref : RefSel} {b : Option Nat} {u : State} (h : Running s) (hs : s.acq.state = .sync)
    (hrun : estimateAndCorrelate ref s = .ok (b, u)) : Estimated s u ∧ ∀ k, b = some k → k < u.n := by
  obtain ⟨t, z, ht, hz, hc⟩ := (estimateAndCorrelate_ok _ _ _).1 hrun
  have est := h.estimate hs ht
  obtain ⟨⟨be, -, rfl⟩, hbin⟩ := correlate_spec (readCorrected_length hz) hc
  exact ⟨⟨est.running.setCorrelator be, est.state, est.position, est.estDone, est.cfg⟩, hbin⟩

/-- Past the prologue, the position moves on and the deviation or the down-chirp result may be recorded. -/
theorem Running.advance (h : Running s) (hs : s.acq.state = .sync) (hd : s.acq.estDone = true) {p : SyncPos} {w v : Word}
    (hp : p ≠ .netId1) (hv : p ≠ .quarterDown → v = nosymWord) (hbin : binOrNosym v s.n)
    (hw : w = 0 ∨ w = 1 ∨ w = intWord (-1)) :
    Running { s with acq := { s.acq with syncPos := p, netIdOff := w, downVal := v } } := by
  have sync := h.sync hs
  have tracked := h.tracked (by rw [hs]; exact nofun)
  have first : s.acq.estDone = false → p = .netId1 := by rw [hd]; exact nofun
  exact running_of_parts ⟨h.valid, h.up, h.down⟩
    (.of_sync hs ⟨tracked.count, tracked.mean⟩
      ⟨first, fun h => absurd h hp, hv, sync.cfoInt, sync.symCnt, sync.symbNumb⟩ h.binPrev hbin hw)
    ⟨h.consumed, h.produced, h.outCount⟩ h.corr h.run

/-- Before `QUARTER_DOWN` there is no down-chirp result. -/
theorem Estimated.downVal {t : State} (h : Estimated s t) (hp : s.acq.syncPos ≠ .quarterDown) : t.acq.downVal = nosymWord :=
  (h.running.sync h.state).downVal (h.position ▸ hp)

theorem Running.stepNetId1 {t : State} (h : Running s) (hs : s.acq.state = .sync) (hp : s.acq.syncPos = .netId1)
    (hrun : stepNetId1 s = .ok t) : Running t := by
  obtain ⟨b, u, hc, rfl⟩ := (stepNetId1_ok s t).1 hrun
  obtain ⟨est, -⟩ := h.estimateAndCorrelate hs hc
  have consumed : Running (u.consume s.n) := est.n_eq ▸ est.running.consume_n
  dsimp only
  split
  · exact consumed
  · split
    · next hnear =>
      have hv := est.downVal (by rw [hp]; exact nofun)
      exact consumed.advance (p := .netId2) (v := u.acq.downVal) est.state est.estDone nofun (fun _ => hv) (.inl hv)
        (deviation_cases hnear)
    · exact consumed.resync _

theorem Running.stepNetId2 {t : State} (h : Running s) (hs : s.acq.state = .sync) (hp : s.acq.syncPos = .netId2)
    (hrun : stepNetId2 s = .ok t) : Running t := by
  obtain ⟨b, u, hc, rfl⟩ := (stepNetId2_ok s t).1 hrun
  obtain ⟨est, -⟩ := h.estimateAndCorrelate hs hc
  split
  · have hv := est.downVal (by rw [hp]; exact nofun)
    have advanced := est.running.advance (p := .downchirp1) (w := u.acq.netIdOff) (v := u.acq.downVal) est.state est.estDone
      nofun (fun _ => hv) (.inl hv) est.running.netIdOff
    have hoff : u.acq.netIdOff.toInt = 0 ∨ u.acq.netIdOff.toInt = 1 ∨ u.acq.netIdOff.toInt = -1 := by
      obtain h | h | h := est.running.netIdOff <;> rw [h] <;> decide
    have hn : s.n = u.n := est.n_eq.symm
    split
    · exact advanced.consume (c := (s.n - u.acq.netIdOff.toInt).toNat) (by have := n_pos s; omega)
        (show _ ≤ u.n + 1 by omega)
    · exact advanced.consume (c := s.n) rfl (show _ ≤ u.n + 1 by omega)
  · exact Running.resync (est.n_eq ▸ est.running.consume_n) _

theorem Running.stepDownchirp1 {t : State} (h : Running s) (hs : s.acq.state = .sync) (hp : s.acq.syncPos = .downchirp1)
    (hrun : stepDownchirp1 s = .ok t) : Running t := by
  obtain ⟨u, hu, rfl⟩ := (stepDownchirp1_ok s t).1 hrun
  have est := h.estimate hs hu
  have hv := est.downVal (by rw [hp]; exact nofun)
  have advanced := est.running.advance (p := .downchirp2) (w := u.acq.netIdOff) (v := u.acq.downVal) est.state est.estDone
    nofun (fun _ => hv) (.inl hv) est.running.netIdOff
  exact est.n_eq ▸ advanced.consume_n

theorem Running.stepDownchirp2 {t : State} (h : Running s) (hs : s.acq.state = .sync) (hrun : stepDownchirp2 s = .ok t) :
    Running t := by
  obtain ⟨b, u, hc, rfl⟩ := (stepDownchirp2_ok s t).1 hrun
  obtain ⟨est, hbin⟩ := h.estimateAndCorrelate hs hc
  have advanced := est.running.advance (p := .quarterDown) (w := u.acq.netIdOff) est.state est.estDone nofun
    (fun h => absurd rfl h) (binOrNosym_binWord hbin est.running.sized.n_le) est.running.netIdOff
  exact est.n_eq ▸ advanced.consume_n

/-- The tag and the frame's counters, with the integer offset of the down-chirp result. -/
theorem Running.enterFrame (h : Running s) (hs : s.acq.state = .sync) (hp : s.acq.syncPos = .quarterDown)
    (hd : s.acq.estDone = true) (hv : s.acq.downVal ≠ nosymWord) (hdrSyms : BitVec 16) :
    Running ((s.tagFrame (integerCfo s.acq.downVal.toInt s.n)).startFrame hdrSyms) := by
  have tracked := h.tracked (by rw [hs]; exact nofun)
  exact running_of_parts ⟨h.valid, h.up, h.down⟩
    (.of_frac rfl ⟨tracked.count, tracked.mean⟩ ⟨hp, hd, hv, rfl⟩ h.binPrev h.downVal h.netIdOff)
    ⟨h.consumed, h.produced, h.outCount⟩ h.corr h.run

/-- A quarter symbol and the integer offset are between 0 and half a symbol. -/
theorem integerCfo_bounds {w : Word} {n : Nat} (hw : w.toNat < n) (hn : n ≤ 4096) (hfour : n % 4 = 0) :
    0 ≤ ((n / 4 : Nat) : Int) + integerCfo w.toInt n ∧ ((n / 4 : Nat) : Int) + integerCfo w.toInt n ≤ n := by
  have hint : w.toInt = w.toNat := BitVec.toInt_eq_toNat_of_lt (by omega)
  unfold integerCfo
  rw [hint]
  split <;> omega

theorem Running.endSync (h : Running s) (hs : s.acq.state = .sync) (hp : s.acq.syncPos = .quarterDown)
    (hd : s.acq.estDone = true) (hdrSyms : BitVec 16) : Running (s.endSync s.n hdrSyms) := by
  unfold State.endSync
  split
  · exact h.consume_n.resync _
  · next hv =>
    have hz := h.sized
    have hbin : s.acq.downVal.toNat < s.n := h.downVal.resolve_left hv
    obtain ⟨lo, hi⟩ := integerCfo_bounds hbin hz.n_le hz.n_four
    have frame := (h.enterFrame hs hp hd hv hdrSyms).generate
    exact frame.consume (v := ((s.n / 4 : Nat) : Int) + integerCfo s.acq.downVal.toInt s.n)
      (Int.toNat_of_nonneg lo).symm (show _ ≤ s.n + 1 by omega)

theorem Running.stepQuarterDown {t : State} (h : Running s) (hs : s.acq.state = .sync) (hp : s.acq.syncPos = .quarterDown)
    (hrun : stepQuarterDown s = .ok t) : Running t := by
  obtain ⟨u, hu, rfl⟩ := (stepQuarterDown_ok s t).1 hrun
  have est := h.estimate hs hu
  rw [← est.n_eq]
  exact est.running.endSync est.state (est.position.trans hp) est.estDone _

/-! ### `FRAC_CFO_CORREC` -/

theorem Running.stepFrac {t : State} (h : Running s) (hs : s.acq.state = .fracCfoCorrec) (hrun : stepFrac s = .ok t) :
    Running t := by
  unfold Machine.stepFrac at hrun
  split at hrun
  · obtain ⟨z, -, rfl⟩ := (stepEmit_ok s t).1 hrun
    have stored : Running (s.storeElems .outbuf 0 z) :=
      h.congr rfl rfl rfl (h.corr.storeElems _ _ _) (h.run.storeElems _ _ _)
    have consumed := stored.consume_n
    have frac := h.frac hs
    have tracked := h.tracked (by rw [hs]; exact nofun)
    exact running_of_parts ⟨consumed.valid, consumed.up, consumed.down⟩
      (.of_frac hs ⟨tracked.count, tracked.mean⟩ ⟨frac.position, frac.estDone, frac.downVal, frac.cfoInt⟩ h.binPrev
        h.downVal h.netIdOff)
      ⟨consumed.consumed, .inr (toNat_ofNat_n h.sized), h.outCount⟩ consumed.corr consumed.run
  · exact Except.ok.inj hrun ▸ h.noProgress.resync _

/-! ### `DETECT` -/

/-- The acquisition context in `DETECT` after a symbol has been tracked: the run may have reached its length. -/
structure Matched (t : State) : Prop where
  state : t.acq.state = .detect
  position : t.acq.syncPos = .netId1
  estDone : t.acq.estDone = false
  count : t.acq.matchCnt.toNat + 1 ≤ t.nup
  sum : t.acq.kHat.toNat ≤ t.acq.matchCnt.toNat * (t.n - 1)
  cfoInt : t.acq.cfoInt = 0
  netIdOff : t.acq.netIdOff = 0
  downVal : t.acq.downVal = nosymWord
  symCnt : t.acq.symCnt = 0
  symbNumb : t.acq.symbNumb = t.cfg.hdrSyms.setWidth 32
  binPrev : binOrNosym t.acq.binPrev t.n
  run : Written t .pre (t.acq.matchCnt.toNat * t.n)

theorem some_of_binsMatch {b : Option Nat} {prev : Word} (h : binsMatch b prev = true) : ∃ k, b = some k := by
  cases b with
  | none => cases h
  | some k => exact ⟨k, rfl⟩

/-- The count and the sum after one more match: neither overflows. -/
theorem toNat_match (h : Running s) (hs : s.acq.state = .detect) {k : Nat} (hk : k < s.n) :
    (s.acq.matchCnt + 1).toNat = s.acq.matchCnt.toNat + 1 ∧
      (s.acq.kHat + BitVec.ofNat 32 k).toNat = s.acq.kHat.toNat + k := by
  have detect := h.detect hs
  have hz := h.sized
  have hn := hz.n_le
  have hcnt : s.acq.matchCnt.toNat ≤ 30 := by have := detect.count; have := hz.nup_le; omega
  have hsum : s.acq.kHat.toNat ≤ 30 * 4095 := detect.sum.trans (Nat.mul_le_mul hcnt (by omega))
  constructor
  · rw [BitVec.toNat_add, show (1 : Word).toNat = 1 from rfl, Nat.mod_eq_of_lt (by omega)]
  · rw [BitVec.toNat_add, toNat_ofNat_lt hk hn, Nat.mod_eq_of_lt (by omega)]

theorem Running.track_matched (h : Running s) (hs : s.acq.state = .detect) {b : Option Nat} (hb : ∀ k, b = some k → k < s.n)
    {x : List Sample} (hx : x.length = s.n) : Matched (s.track b x) := by
  have detect := h.detect hs
  have hz := h.sized
  have hbin := binOrNosym_binWord hb hz.n_le
  unfold State.track
  split
  · next hmatch =>
    obtain ⟨k, rfl⟩ := some_of_binsMatch hmatch
    have hk := hb k rfl
    obtain ⟨hcnt, hsum⟩ := toNat_match h hs hk
    have count : (s.acq.matchCnt + 1).toNat + 1 ≤ s.nup := by have := detect.count; omega
    have sum : (s.acq.kHat + BitVec.ofNat 32 k).toNat ≤ (s.acq.matchCnt + 1).toNat * (s.n - 1) := by
      have := detect.sum
      rw [hcnt, hsum, Nat.add_mul]
      omega
    have run : Written (s.storeElems .pre (s.acq.matchCnt.toNat * s.n) x) .pre ((s.acq.matchCnt + 1).toNat * s.n) :=
      written_storeElems_append h.run x (by rw [hcnt, hx, Nat.add_mul]; omega)
    exact ⟨hs, detect.position, detect.estDone, count, sum, detect.cfoInt, detect.netIdOff, detect.downVal, detect.symCnt,
      detect.symbNumb, hbin, run⟩
  · have count : (1 : Word).toNat + 1 ≤ s.nup := by have := hz.nup_ge; simp; omega
    have sum : (BitVec.ofNat 32 (b.getD 0)).toNat ≤ (1 : Word).toNat * (s.n - 1) := by
      have hlt : b.getD 0 < s.n := by
        cases b with
        | none => exact n_pos s
        | some k => exact hb k rfl
      rw [toNat_ofNat_lt hlt hz.n_le]
      simp
      omega
    have run : Written (s.storeElems .pre 0 x) .pre ((1 : Word).toNat * s.n) :=
      written_storeElems_append written_zero x (by simp [hx])
    exact ⟨hs, detect.position, detect.estDone, count, sum, detect.cfoInt, detect.netIdOff, detect.downVal, detect.symCnt,
      detect.symbNumb, hbin, run⟩

theorem track_frame (s : State) (b : Option Nat) (x : List Sample) :
    (s.track b x).chirps = s.chirps ∧ (s.track b x).results = s.results ∧
      ∀ n, Written s .corr n → Written (s.track b x) .corr n := by
  unfold State.track
  split
  · exact ⟨rfl, rfl, fun n h => h.storeElems .pre (s.acq.matchCnt.toNat * s.n) x⟩
  · exact ⟨rfl, rfl, fun n h => h.storeElems .pre 0 x⟩

/-- The rounded mean of a full run is a bin. -/
theorem Matched.mean_bounds (m : Matched s) (hz : Sized s) (hfull : s.acq.matchCnt.toNat + 1 = s.nup) :
    0 ≤ roundHazFrac s.acq.kHat.toNat (s.nup - 1) ∧ roundHazFrac s.acq.kHat.toNat (s.nup - 1) ≤ ((s.n - 1 : Nat) : Int) := by
  have hden : 0 < s.nup - 1 := by have := hz.nup_ge; omega
  have hsum : s.acq.kHat.toNat ≤ (s.nup - 1) * (s.n - 1) := by
    have := m.sum
    rwa [show s.acq.matchCnt.toNat = s.nup - 1 by omega] at this
  exact ⟨le_roundHazFrac (lo := 0) hden (by omega), roundHazFrac_le hden hsum⟩

theorem Matched.running_enterSync (m : Matched s) (ready : Ready s) (reported : Reported s) (corr : Written s .corr s.n)
    (hfull : s.acq.matchCnt.toNat + 1 = s.nup) : Running s.enterSync := by
  have hz := sized_of_valid ready.valid
  have hn := hz.n_le
  have hpos := n_pos s
  obtain ⟨lo, hi⟩ := m.mean_bounds hz hfull
  obtain ⟨mean, hmean⟩ := Int.eq_ofNat_of_zero_le lo
  have hword : (intWord (roundHazFrac s.acq.kHat.toNat (s.nup - 1))).toNat < s.n := by
    rw [hmean, toNat_intWord (by omega)]; omega
  have entered : Running { s with acq := { s.acq with
      kHat := intWord (roundHazFrac s.acq.kHat.toNat (s.nup - 1)), state := .sync, syncPos := .netId1, estDone := false } } :=
    running_of_parts ⟨ready.valid, ready.up, ready.down⟩
      (.of_sync rfl ⟨hfull, hword⟩
        ⟨fun _ => rfl, fun _ => m.netIdOff, fun _ => m.downVal, m.cfoInt, m.symCnt, m.symbNumb⟩ m.binPrev (.inl m.downVal)
        (.inl m.netIdOff))
      ⟨reported.consumed, reported.produced, reported.outCount⟩ corr m.run
  exact entered.consume (c := s.n - mean) (by omega) (show _ ≤ s.n + 1 by omega)

theorem Matched.running_endDetect (m : Matched s) (ready : Ready s) (reported : Reported s) (corr : Written s .corr s.n) :
    Running s.endDetect := by
  unfold State.endDetect
  split
  · next hfull => exact m.running_enterSync ready reported corr hfull
  · next hpart =>
    have count : s.acq.matchCnt.toNat + 1 < s.nup := by have := m.count; omega
    have detect : InDetect s :=
      ⟨m.position, m.estDone, count, m.sum, m.cfoInt, m.netIdOff, m.downVal, m.symCnt, m.symbNumb⟩
    exact (running_of_parts ready (.of_detect m.state detect m.binPrev) reported corr m.run).consume_n

/-- A step in `DETECT` correlates the symbol, tracks it and ends. -/
theorem stepDetect_spec {t : State} (hrun : stepDetect s = .ok t) :
    ∃ be : Option Nat × Word, be = s.nums.demod (s.vec .sym s.n) (s.vec .down s.n) ∧ (∀ k, be.1 = some k → k < s.n) ∧
      (s.vec .sym s.n).length = s.n ∧ t = ((s.setCorrelator be).track be.1 (s.vec .sym s.n)).endDetect := by
  obtain ⟨b, u, hsym, hc, rfl⟩ := (stepDetect_ok s t).1 hrun
  have hx : (s.vec .sym s.n).length = s.n := Written.vec_length hsym
  obtain ⟨hw, heq⟩ := (correlate_ok _ _ _ _).1 hc
  obtain ⟨rfl, rfl⟩ := Prod.mk.inj heq
  exact ⟨_, rfl, demod_bin_lt hx (Written.vec_length (s := s) hw), hx, rfl⟩

theorem Running.stepDetect {t : State} (h : Running s) (hs : s.acq.state = .detect) (hrun : stepDetect s = .ok t) :
    Running t := by
  obtain ⟨be, -, hbin, hx, rfl⟩ := stepDetect_spec hrun
  have correlated := h.setCorrelator be
  obtain ⟨chirps, results, corr⟩ := track_frame (s.setCorrelator be) be.1 (s.vec .sym s.n)
  have matched := correlated.track_matched hs hbin hx
  have hn : ((s.setCorrelator be).track be.1 (s.vec .sym s.n)).n = s.n := n_of_cfg_eq (congrArg Prod.fst chirps)
  exact matched.running_endDetect (correlated.ready.congr chirps) (correlated.reported.congr results)
    (corr _ (by rw [hn]; exact correlated.corr))

/-! ### Whole steps -/

theorem Running.stepCase {t : State} (h : Running s) (hrun : stepCase s = .ok t) : Running t :=
  stepCase_cases hrun h.stepDetect h.stepNetId1 h.stepNetId2 h.stepDownchirp1 (fun hs _ => h.stepDownchirp2 hs)
    h.stepQuarterDown h.stepFrac

theorem Running.fsmStep {t : State} (h : Running s) (hrun : fsmStep s = .ok t) : Running t := by
  obtain ⟨u, hu, rfl⟩ := (fsmStep_ok s t).1 hrun
  exact (h.clearReport.stepCase hu).countUp

theorem Running.setTap (h : Running s) : Running s.setTap := h.congr rfl rfl rfl h.corr h.run

theorem Running.invoke {t : State} (h : Running s) (hrun : invoke s = .ok t) : Running t := by
  obtain ⟨-, rfl⟩ | ⟨-, u, hu, ht⟩ := (invoke_ok s t).1 hrun
  · exact h.drainEvents.noProgress
  · exact (h.drainEvents.setTap.downs hu).fsmStep ht

theorem Running.runUnit {i : Instr} {t : State} (h : Running s) (hrun : runUnit i s = .ok t) : Running t := by
  cases i with
  | gen => exact Except.ok.inj hrun ▸ h.generate
  | demod ref src =>
    obtain ⟨be, rfl⟩ := runUnit_demod_ok ref src s t hrun
    exact h.setCorrelator be
  | interp => exact Except.ok.inj hrun ▸ h.congr rfl rfl rfl h.corr h.run
  | cfoest => exact h.cfoest hrun
  | cfoalt =>
    obtain ⟨r, rfl⟩ := runUnit_cfoalt_ok s t hrun
    exact h.congr rfl rfl rfl h.corr h.run
  | stoest => exact h.stoest hrun
  | fdly => exact Except.ok.inj hrun ▸ h.setTap
  | downs => exact h.downs hrun
  | fsmstep => exact h.fsmStep hrun
  | drain => exact Except.ok.inj hrun ▸ h.drainEvents
  | _ => exact Except.ok.inj hrun ▸ h

end

end Sys2Proof.Machine
end

section
/-! The protocol invariant between bus accesses (O48), and the state after reset (O51). -/

namespace Sys2Proof.Machine

/-- A state with the same `STARTED` meets the protocol invariant if its queue, its unstarted part and its running part do. -/
theorem Protocol.of_parts {s t : State} (h : Protocol s) (started : t.started = s.started)
    (queue : t.evq.length ≤ Config.evqDepth) (unstarted : s.started = false → Unstarted s → Unstarted t)
    (running : s.started = true → Running s → Running t) : Protocol t where
  queue := queue
  unstarted e := unstarted (started ▸ e) (h.unstarted (started ▸ e))
  running e := running (started ▸ e) (h.running (started ▸ e))

theorem writeReg_unstarted {s : State} (h : Unstarted s) (r : Reg) (w : Word) : Unstarted (writeReg s r w) := by
  obtain ⟨-, -, test, -, acq, mems, evq, -⟩ := writeReg_frame s r w
  exact ⟨test.trans h.test, mems.trans h.mems, evq.trans h.queue, acq.trans h.context⟩

theorem Running.writeReg {s : State} (h : Running s) (hs : s.started = true) {r : Reg} (hr : r.access.admits s) (w : Word) :
    Running (writeReg s r w) := by
  obtain ⟨-, -, -, -, -, mems, -⟩ := writeReg_frame s r w
  have written {sp : Space} {n : Nat} (hw : Written s sp n) : Written (Machine.writeReg s r w) sp n := by
    unfold Written; rwa [State.mem_congr mems]
  refine h.congr ?_ ?_ ?_ (written h.corr) (written h.run) <;> clear written mems <;>
    cases r <;> first | rfl | simp [Reg.access, Access.admits, hs] at hr

theorem Running.setMem {s : State} (h : Running s) {sp : Space} (hw : HostWritable s sp) (off : Nat) (w : Word) :
    Running (s.setMem sp ((s.mem sp).store off [w])) := by
  have corr := h.corr.setMem sp off [w]
  have run := h.run.setMem sp off [w]
  obtain ⟨-, rfl | ⟨rfl | rfl, -⟩⟩ := hw <;> exact h.congr rfl rfl rfl corr run

theorem queue_update {s t : State} (u : Update s t) (h : s.evq.length ≤ Config.evqDepth) :
    t.evq.length ≤ Config.evqDepth := by
  cases u with
  | registers e => rwa [show t.evq = s.evq from congrArg Core.evq e]
  | store | foldCfo | foldSto | neutral => exact h
  | drain => exact Nat.zero_le _

theorem body_protocol {s t : State} (hs : s.started = true) (hrun : invoke s = .ok t ∨ ∃ i, runUnit i s = .ok t)
    (running : Running s → Running t) (h : Protocol s) : Protocol t :=
  h.of_parts (body_sameMode hrun).1 (body_keeps (fun _ _ => queue_update) (fun _ h => h) hrun h.queue)
    (fun e => absurd hs (e ▸ nofun)) (fun _ => running)

theorem protocol_resetBlock (s : State) : Protocol s.resetBlock where
  queue := Nat.zero_le _
  unstarted _ := ⟨rfl, rfl, rfl, rfl⟩
  running := nofun

theorem protocol_kept : StepKeeps Protocol where
  bus _ _ h := h.of_parts rfl h.queue (fun _ u => ⟨u.test, u.mems, u.queue, u.context⟩)
    (fun _ r => r.congr rfl rfl rfl r.corr r.run)
  busData _ _ h := h.of_parts rfl h.queue (fun _ u => ⟨u.test, u.mems, u.queue, u.context⟩)
    (fun _ r => r.congr rfl rfl rfl r.corr r.run)
  err _ _ h := h.of_parts rfl h.queue (fun _ u => ⟨u.test, u.mems, u.queue, u.context⟩)
    (fun _ r => r.congr rfl rfl rfl r.corr r.run)
  register s r w hr h := by
    obtain ⟨-, started, -, -, -, -, evq, -⟩ := writeReg_frame s r w
    exact h.of_parts started (evq ▸ h.queue) (fun _ u => writeReg_unstarted u r w) (fun hs run => run.writeReg hs hr w)
  sample s sp off w hw h := h.of_parts rfl h.queue (fun e => absurd hw.1 (e ▸ nofun)) (fun _ run => run.setMem hw off w)
  reset s _ := protocol_resetBlock s
  start s m hs hv h := ⟨h.queue, nofun, fun _ => running_construct m hv⟩
  frameInfo s hs room h := h.of_parts rfl (by rw [List.length_append]; exact room) (fun e => absurd hs (e ▸ nofun))
    (fun _ r => r.congr rfl rfl rfl r.corr r.run)
  work _ _ hs run h := body_protocol hs (.inl run) (fun r => r.invoke run) h
  unit i _ _ hs _ run h := body_protocol hs (.inr ⟨i, run⟩) (fun r => r.runUnit run) h

/-- Settles O48: each operation keeps the part of the invariant it touches. -/
theorem stepsKeepTheProtocol : Obligations.StepsKeepTheProtocol :=
  fun _ _ hs h => protocol_kept.step hs h

/-- Settles O51: the reset state is unstarted and neutral. -/
theorem resetMeetsTheInvariants : Obligations.ResetMeetsTheInvariants :=
  ⟨canonicalMemories_reset, protocol_resetBlock State.reset, nofun, offsetsFractional_neutral (hdrSyms := 8) rfl⟩

end Sys2Proof.Machine
end

section
/-! `WORK` completes on a written window (O23): the tap keeps the downsampler inside the window, and everything a step reads
is written in a running block. -/

namespace Sys2Proof.Machine

/-! ### Steps that complete -/

theorem Written.update {s t : State} {sp : Space} {n : Nat} (u : Update s t) (h : Written s sp n) : Written t sp n := by
  cases u with
  | registers e => unfold Written; rwa [State.mem_congr (congrArg Core.mems e)]
  | store sp' i xs => exact h.storeElems sp' i xs
  | foldCfo | foldSto | neutral | drain => cases sp <;> exact h

theorem Updates.written {s t : State} {sp : Space} {n : Nat} (u : Updates s t) (h : Written s sp n) : Written t sp n :=
  u.keeps (P := fun s => Written s sp n) (fun _ _ => Written.update) h

theorem Holds.written {s : State} {sp : Space} {xs : List Sample} (h : Holds s sp 0 xs) : Written s sp xs.length := by
  unfold Written
  rw [Mem.written_indices_iff]
  intro k hk
  have helem := h k xs[k] (List.getElem?_eq_getElem hk)
  rw [Nat.zero_add] at helem
  rw [helem]
  rfl

section

variable {s : State}

theorem Running.written_ref (h : Running s) (ref : RefSel) : Written s (refSpace ref) s.n := by
  have hlen : 2 ^ s.cfg.sf.toNat * 1 = s.n := Nat.mul_one _
  cases ref with
  | down => have hw := h.down.written; rwa [Num.gen_snd_length, hlen] at hw
  | up => have hw := h.up.written; rwa [Num.gen_fst_length, hlen] at hw

theorem Running.correlate_total (h : Running s) (x : List Sample) (ref : RefSel) : ∃ b u, correlate x ref s = .ok (b, u) :=
  ⟨_, _, (correlate_ok x ref s _).2 ⟨h.written_ref ref, rfl⟩⟩

/-- The symbols an estimator uses are among those of the run. -/
theorem Running.written_preamble (h : Running s) (hs : s.acq.state = .sync) : Written s .pre (s.nused * s.n) := by
  have tracked := (h.tracked (by rw [hs]; exact nofun)).count
  have hused := h.sized.nused_lt
  exact h.run.mono (Nat.mul_le_mul_right _ (by omega))

theorem setCfo_written_prec (s : State) (r : CfoResult Word) : Written (s.setCfo r) .prec r.prec.length := by
  have stored : Written ((s.setPeak r.peak r.ka).storeElems .prec 0 r.prec) .prec r.prec.length :=
    written_storeElems_append written_zero _ (by omega)
  exact stored.storeElems .corr 0 r.corr

theorem Running.runCfoest_total (h : Running s) (hs : s.acq.state = .sync) :
    ∃ r, runCfoest s = .ok (s.setCfo r) ∧ r.prec.length = s.nused * s.n := by
  have hpre := h.written_preamble hs
  refine ⟨_, (runCfoest_ok s _).2 ⟨hpre, h.written_ref .down, rfl⟩, ?_⟩
  simp only [Num.cfoest, Num.correctPreamble, List.length_map, List.length_zipIdx]
  exact hpre.vec_length

theorem Running.estimate_total (h : Running s) (hs : s.acq.state = .sync) : ∃ t, Machine.estimate s = .ok t := by
  cases hd : s.acq.estDone with
  | true => exact ⟨s, estimate_done hd⟩
  | false =>
    obtain ⟨r, hr, hlen⟩ := h.runCfoest_total hs
    have hprec : Written (s.setCfo r) .prec (s.nused * s.n) := hlen ▸ setCfo_written_prec s r
    have hdown := (h.setCfo r).written_ref .down
    have hsto := (runStoest_ok (s.setCfo r) _).2 ⟨hprec, hdown, rfl⟩
    exact ⟨_, (estimate_ok s _).2 (.inr ⟨hd, _, _, hr, hsto, rfl⟩)⟩

theorem Running.estimateAndCorrelate_total (h : Running s) (hs : s.acq.state = .sync) (hsym : Written s .sym s.n)
    (ref : RefSel) : ∃ b u, Machine.estimateAndCorrelate ref s = .ok (b, u) := by
  obtain ⟨t, ht⟩ := h.estimate_total hs
  have est := h.estimate hs ht
  have hsym' : Written t .sym t.n := est.n_eq ▸ (estimate_updates ht).written hsym
  obtain ⟨b, u, hc⟩ := est.running.correlate_total t.corrected ref
  exact ⟨b, u, (estimateAndCorrelate_ok _ _ _).2 ⟨t, _, ht, readCorrected_written hsym' est.running.corr, hc⟩⟩

theorem Running.stepSync_total (h : Running s) (hs : s.acq.state = .sync) (hsym : Written s .sym s.n) (p : SyncPos) :
    ∃ t, stepSync p s = .ok t := by
  cases p with
  | netId1 =>
    obtain ⟨b, u, hc⟩ := h.estimateAndCorrelate_total hs hsym .down
    exact ⟨_, (stepNetId1_ok s _).2 ⟨b, u, hc, rfl⟩⟩
  | netId2 =>
    obtain ⟨b, u, hc⟩ := h.estimateAndCorrelate_total hs hsym .down
    exact ⟨_, (stepNetId2_ok s _).2 ⟨b, u, hc, rfl⟩⟩
  | downchirp1 =>
    obtain ⟨u, hu⟩ := h.estimate_total hs
    exact ⟨_, (stepDownchirp1_ok s _).2 ⟨u, hu, rfl⟩⟩
  | downchirp2 =>
    obtain ⟨b, u, hc⟩ := h.estimateAndCorrelate_total hs hsym .up
    exact ⟨_, (stepDownchirp2_ok s _).2 ⟨b, u, hc, rfl⟩⟩
  | quarterDown =>
    obtain ⟨u, hu⟩ := h.estimate_total hs
    exact ⟨_, (stepQuarterDown_ok s _).2 ⟨u, hu, rfl⟩⟩

theorem Running.stepCase_total (h : Running s) (hsym : Written s .sym s.n) : ∃ t, Machine.stepCase s = .ok t := by
  cases hs : s.acq.state with
  | detect =>
    rw [stepCase_detect hs]
    obtain ⟨b, u, hc⟩ := h.correlate_total (s.vec .sym s.n) .down
    exact ⟨_, (stepDetect_ok s _).2 ⟨b, u, hsym, hc, rfl⟩⟩
  | sync =>
    rw [stepCase_sync hs]
    exact h.stepSync_total hs hsym _
  | fracCfoCorrec =>
    rw [stepCase_frac hs]
    unfold Machine.stepFrac
    split
    · exact ⟨_, (stepEmit_ok s _).2 ⟨_, readCorrected_written hsym h.corr, rfl⟩⟩
    · exact ⟨_, rfl⟩

theorem Running.fsmStep_total (h : Running s) (hsym : Written s .sym s.n) : ∃ t, Machine.fsmStep s = .ok t := by
  obtain ⟨u, hu⟩ := h.clearReport.stepCase_total hsym
  exact ⟨_, (fsmStep_ok s _).2 ⟨u, hu, rfl⟩⟩

/-! ### The downsampler inside the window (rule R185) -/

theorem written_downsampleIndices {os n : Nat} {d : Int} (hd : TapInRange os d)
    (hw : Written s .inbuf (os * (n + 2))) : (s.mem .inbuf).written (downsampleIndices os n d) = true := by
  unfold Written at hw
  rw [Mem.written_indices_iff] at hw
  rw [Mem.written_iff]
  intro i hi
  obtain ⟨k, hk, rfl⟩ := List.mem_map.1 hi
  have hk := List.mem_range.1 hk
  have hprod : os * (k + 1) ≤ os * n := Nat.mul_le_mul_left os hk
  obtain ⟨lo, -, hi⟩ := hd
  rw [Nat.mul_add] at hprod hw
  obtain ⟨j, hj⟩ := Int.eq_ofNat_of_zero_le (a := (os : Int) - 1 + os * k - d) (by omega)
  rw [hj]
  refine hw j ?_
  zify at hprod ⊢
  omega

theorem Running.runDowns_total (h : Running s) (frac : fractionalWord s.acq.lambdaSto)
    (hw : Written s .inbuf (s.os * (s.n + 2))) :
    ∃ u, runDowns s.setTap = .ok u ∧ Running u ∧ Written u .sym u.n := by
  have hz := h.sized
  have hwritten := written_downsampleIndices (s := s) (toInt_setTap frac hz.os_pos hz.os_le) hw
  have hrun := (runDowns_ok s.setTap _).2 ⟨hwritten, rfl⟩
  have hlen : ((s.mem .inbuf).values (downsampleIndices s.os s.n s.setTap.delayD.toInt)).length = s.n := by
    rw [Mem.values_length _ _ hwritten]; simp [downsampleIndices]
  refine ⟨_, hrun, h.setTap.downs hrun, written_storeElems_append written_zero _ ?_⟩
  exact (hlen.symm.trans (Nat.zero_add _).symm).le

/-- Settles O23: after the drain the block still runs with fractional offsets and the window written, so tap, downsampler and
step complete in turn. -/
theorem workCompletesOnAWrittenWindow : Obligations.WorkCompletesOnAWrittenWindow := by
  intro s hs hp hfrac hwin
  obtain ⟨hstarted, htest, hcfg⟩ := drainEvents_sameMode s
  have updates := drainEvents_updates s
  have running : Running s.drainEvents := (hp.running hs).drainEvents
  refine ⟨s.drainEvents.relabel true .none, exec_drain_test hs, fun hno => ?_, fun hin hroom => ?_⟩
  · have hno' : ¬s.drainEvents.canProgress = true := by
      rw [canProgress_iff hcfg]
      rintro ⟨hle, hroom⟩
      exact hno.elim (fun h => absurd hle (Nat.not_le.2 h)) hroom
    have hrun : invoke s = .ok s.drainEvents.noProgress := if_neg hno'
    rw [← htest]
    exact hostCommand_ok hs hrun
  · have progress : s.drainEvents.canProgress = true := (canProgress_iff hcfg).2 ⟨hin, hroom⟩
    have hinbuf : Written s.drainEvents .inbuf (s.drainEvents.os * (s.drainEvents.n + 2)) := by
      rw [n_of_cfg_eq hcfg, os_of_cfg_eq hcfg]; exact updates.written hwin
    have offsets : OffsetsFractional s.drainEvents := updates.keeps (fun _ _ => .update) hfrac
    obtain ⟨u, hu, hurun, husym⟩ := running.runDowns_total offsets.2 hinbuf
    obtain ⟨t, ht⟩ := hurun.fsmStep_total husym
    have hrun : invoke s = .ok t := (invoke_of_canProgress progress).trans ((bind_ok _ _ _).2 ⟨u, hu, ht⟩)
    obtain ⟨-, ttest, -⟩ := body_sameMode (.inl hrun)
    have ustarted : u.started = true := by
      obtain ⟨-, rfl⟩ := (runDowns_ok _ _).1 hu
      exact hstarted.trans hs
    refine ⟨_, u.relabel true .none, t.relabel true .none, exec_fdly_test hs,
      exec_relabel_ok (i := .downs) rfl (hstarted.trans hs) (blind_runDowns true .none) hu,
      exec_relabel_ok (i := .fsmstep) rfl ustarted (blind_fsmStep true .none) ht, ?_⟩
    rw [← ttest]
    exact hostCommand_ok hs hrun

end

end Sys2Proof.Machine
end

section
/-! What `RUN` mode guarantees in `DETECT` (rule R202 (a), (b)): the slots of the current run in `PRE` decode to the bins that
`K_HAT` sums. A tracked symbol is stored behind the slots already in the run, so they keep their bins. -/

namespace Sys2Proof.Machine

/-! ### Slots of `PRE` -/

theorem Mem.values_of_elems {m : Mem} {idx : List Int} {xs : List Sample} (h : idx.map m.elem = xs.map some) :
    m.values idx = xs := by
  have hvalues : m.values idx = (idx.map m.elem).filterMap id := by simp [Mem.values, List.filterMap_map]
  rw [hvalues, h]
  simp [List.filterMap_map]

section

variable {m : Mem} {n c : Nat} {x : List Sample}

/-- A stored slot reads back. -/
theorem Mem.values_store_slot (hx : x.length = n) : (m.store (2 * (c * n)) (wordsOf x)).values (slotIndices n c) = x := by
  apply Mem.values_of_elems
  apply List.ext_getElem
  · simp [slotIndices, hx]
  · intro j hj hj'
    have hlt : j < x.length := by simpa using hj'
    simp only [slotIndices, List.getElem_map, List.getElem_range]
    rw [Mem.elem_store, if_pos ⟨by omega, by omega⟩, Nat.add_sub_cancel_left]
    exact List.getElem?_eq_getElem hlt

/-- The slots before it keep their samples. -/
theorem Mem.values_store_other_slot {i : Nat} (hi : i < c) :
    (m.store (2 * (c * n)) (wordsOf x)).values (slotIndices n i) = m.values (slotIndices n i) := by
  apply Mem.values_congr
  intro k hk
  obtain ⟨j, hj, rfl⟩ := List.mem_map.1 hk
  have hj := List.mem_range.1 hj
  have hle : (i + 1) * n ≤ c * n := Nat.mul_le_mul_right n hi
  rw [Nat.add_mul] at hle
  rw [Mem.elem_store, if_neg (by omega)]

end

section

variable {s : State} {c : Nat} {x : List Sample}

theorem slotBin_store_same (hx : x.length = s.n) :
    (s.storeElems .pre (c * s.n) x).slotBin c = (s.nums.demod x (s.vec .down s.n)).1 := by
  show (s.nums.demod (((s.mem .pre).store (2 * (c * s.n)) (wordsOf x)).values (slotIndices s.n c)) (s.vec .down s.n)).1 = _
  rw [Mem.values_store_slot hx]

theorem slotBin_store_other {i : Nat} (hi : i < c) : (s.storeElems .pre (c * s.n) x).slotBin i = s.slotBin i := by
  show (s.nums.demod (((s.mem .pre).store (2 * (c * s.n)) (wordsOf x)).values (slotIndices s.n i)) (s.vec .down s.n)).1 = _
  rw [Mem.values_store_other_slot hi]
  rfl

end

/-! ### What `Acquiring` depends on -/

/-- What `Acquiring` speaks of. -/
def State.acquisition (s : State) : Cfg × NumSel × Acq × Mem × Mem × Mem :=
  (s.cfg, s.num, s.acq, s.mems.pre, s.mems.down, s.mems.corr)

/-- The plainest state with an acquisition. -/
def acquisitionState (v : Cfg × NumSel × Acq × Mem × Mem × Mem) : State :=
  { State.reset with
    cfg := v.1, num := v.2.1, acq := v.2.2.1
    mems := { SampleMems.unwritten with pre := v.2.2.2.1, down := v.2.2.2.2.1, corr := v.2.2.2.2.2 } }

theorem acquiring_acquisition (s : State) : Acquiring (acquisitionState s.acquisition) ↔ Acquiring s :=
  ⟨fun ⟨a, b, c, d, e⟩ => ⟨a, b, c, d, e⟩, fun ⟨a, b, c, d, e⟩ => ⟨a, b, c, d, e⟩⟩

theorem Acquiring.congr {s t : State} (h : Acquiring s) (e : t.acquisition = s.acquisition) : Acquiring t :=
  (acquiring_acquisition t).1 (e ▸ (acquiring_acquisition s).2 h)

theorem RunMode.congr {s t : State} (h : RunMode s) (started : t.started = s.started) (test : t.test = s.test)
    (e : t.acquisition = s.acquisition) : RunMode t := by
  intro hs ht hd
  have hacq : t.acq = s.acq := congrArg (fun v => v.2.2.1) e
  exact (h (started ▸ hs) (test ▸ ht) (hacq ▸ hd)).congr e

/-- The neutral context with `CORR` all ones acquires: the run is empty. -/
theorem acquiring_neutral {s : State} {hdrSyms : BitVec 16} (h : s.acq = Acq.neutral hdrSyms)
    (corr : AllEqual s .corr s.n s.nums.cone) : Acquiring s := by
  refine ⟨?_, ?_, corr, ?_, ?_⟩ <;> rw [h] <;> rfl

theorem allEqual_storeElems (s : State) (sp : Space) (n : Nat) (x : Sample) :
    AllEqual (s.storeElems sp 0 (List.replicate n x)) sp n x := by
  intro j hj
  rw [State.storeElems_mem, if_pos rfl, Mem.elem_store, if_pos ⟨by omega, by simpa using hj⟩]
  simp [hj]

theorem acquiring_resync (s : State) (c : Cause) : Acquiring (s.resync c) :=
  acquiring_neutral (s := s.resync c) rfl (allEqual_storeElems s .corr s.n s.nums.cone)

theorem acquiring_construct (s : State) (m : Mode) : Acquiring (s.construct m) :=
  acquiring_neutral (s := s.construct m) rfl (allEqual_storeElems s.generate .corr s.n s.nums.cone)

/-! ### Tracking keeps `Acquiring` -/

section

variable {s : State}

/-- The slots of a run with one more slot in it. -/
theorem sum_slotBins_succ {t : State} {c : Nat} (h : ∀ i, i < c → t.slotBin i = s.slotBin i) :
    ((List.range (c + 1)).map fun i => (t.slotBin i).getD 0).sum =
      ((List.range c).map fun i => (s.slotBin i).getD 0).sum + (t.slotBin c).getD 0 := by
  have hmap : ((List.range c).map fun i => (t.slotBin i).getD 0) = (List.range c).map fun i => (s.slotBin i).getD 0 :=
    List.map_congr_left fun i hi => by rw [h i (List.mem_range.1 hi)]
  rw [List.range_succ, List.map_append, List.sum_append, hmap]
  simp

theorem Acquiring.track (h : Acquiring s) (run : Running s) (hs : s.acq.state = .detect) {x : List Sample}
    (hx : x.length = s.n) {b : Option Nat} (hb : b = (s.nums.demod x (s.vec .down s.n)).1)
    (hlt : ∀ k, b = some k → k < s.n) : Acquiring (s.track b x) := by
  unfold State.track
  split
  · next hmatch =>
    obtain ⟨k, rfl⟩ := some_of_binsMatch hmatch
    obtain ⟨hcnt, hsum⟩ := toNat_match run hs (hlt k rfl)
    have same : (s.storeElems .pre (s.acq.matchCnt.toNat * s.n) x).slotBin s.acq.matchCnt.toNat = some k :=
      (slotBin_store_same hx).trans hb.symm
    have other (i : Nat) (hi : i < s.acq.matchCnt.toNat) :
        (s.storeElems .pre (s.acq.matchCnt.toNat * s.n) x).slotBin i = s.slotBin i := slotBin_store_other hi
    refine ⟨h.lambdaCfo, h.lambdaSto, h.corr, ?_, ?_⟩
    · show (s.acq.kHat + BitVec.ofNat 32 k).toNat = ((List.range (s.acq.matchCnt + 1).toNat).map fun i =>
        ((s.storeElems .pre (s.acq.matchCnt.toNat * s.n) x).slotBin i).getD 0).sum
      rw [hsum, hcnt, sum_slotBins_succ other, same, h.sum]
      rfl
    · show binWord (some k) = if s.acq.matchCnt + 1 = 0 then nosymWord else
        binWord ((s.storeElems .pre (s.acq.matchCnt.toNat * s.n) x).slotBin ((s.acq.matchCnt + 1).toNat - 1))
      have hne : ¬s.acq.matchCnt + 1 = 0 := fun h0 => by rw [h0] at hcnt; exact absurd hcnt (by simp)
      rw [if_neg hne, hcnt, Nat.add_sub_cancel, same]
  · have same : (s.storeElems .pre 0 x).slotBin 0 = b := by
      have hstored := slotBin_store_same (s := s) (c := 0) hx
      rw [Nat.zero_mul] at hstored
      exact hstored.trans hb.symm
    have hbin : b.getD 0 < s.n := by
      cases b with
      | none => exact n_pos s
      | some k => exact hlt k rfl
    refine ⟨h.lambdaCfo, h.lambdaSto, h.corr, ?_, ?_⟩
    · show (BitVec.ofNat 32 (b.getD 0)).toNat = ((s.storeElems .pre 0 x).slotBin 0).getD 0
      rw [same, toNat_ofNat_lt hbin run.sized.n_le]
    · show binWord b = binWord ((s.storeElems .pre 0 x).slotBin 0)
      rw [same]

/-! ### Steps of the state machine -/

/-- Where a step leaves `RUN` mode in `DETECT`, it acquires. -/
def DetectAcquires (t : State) : Prop := t.acq.state = .detect → Acquiring t

theorem detectAcquires_of_state {t : State} {x : SyncState} (h : t.acq.state = x) (hx : x ≠ .detect) : DetectAcquires t :=
  fun hd => absurd (h.symm.trans hd) hx

theorem detectAcquires_resync (s : State) (c : Cause) : DetectAcquires (s.resync c) := fun _ => acquiring_resync s c

theorem DetectAcquires.congr {t : State} (h : DetectAcquires s) (e : t.acquisition = s.acquisition) : DetectAcquires t := by
  intro hd
  have hacq : t.acq = s.acq := congrArg (fun v => v.2.2.1) e
  exact (h (hacq ▸ hd)).congr e

theorem stepDetect_acquires {t : State} (h : DetectAcquires s) (run : Running s) (hs : s.acq.state = .detect)
    (hrun : stepDetect s = .ok t) : DetectAcquires t := by
  obtain ⟨be, hbe, hbin, hx, rfl⟩ := stepDetect_spec hrun
  have correlated : Acquiring (s.setCorrelator be) := (h hs).congr rfl
  have tracked : Acquiring ((s.setCorrelator be).track be.1 (s.vec .sym s.n)) :=
    correlated.track (run.setCorrelator be) hs hx (hbe ▸ rfl) hbin
  unfold State.endDetect
  split
  · exact detectAcquires_of_state (x := .sync) rfl nofun
  · exact fun _ => tracked.congr rfl

theorem stepNetId1_acquires {t : State} (run : Running s) (hs : s.acq.state = .sync) (hrun : stepNetId1 s = .ok t) :
    DetectAcquires t := by
  obtain ⟨b, u, hc, rfl⟩ := (stepNetId1_ok s t).1 hrun
  obtain ⟨est, -⟩ := run.estimateAndCorrelate hs hc
  dsimp only
  split
  · exact detectAcquires_of_state (x := .sync) est.state nofun
  · split
    · exact detectAcquires_of_state (x := .sync) est.state nofun
    · exact detectAcquires_resync _ _

theorem stepNetId2_acquires {t : State} (run : Running s) (hs : s.acq.state = .sync) (hrun : stepNetId2 s = .ok t) :
    DetectAcquires t := by
  obtain ⟨b, u, hc, rfl⟩ := (stepNetId2_ok s t).1 hrun
  obtain ⟨est, -⟩ := run.estimateAndCorrelate hs hc
  split
  · exact detectAcquires_of_state (x := .sync) est.state nofun
  · exact detectAcquires_resync _ _

theorem stepDownchirp1_acquires {t : State} (run : Running s) (hs : s.acq.state = .sync) (hrun : stepDownchirp1 s = .ok t) :
    DetectAcquires t := by
  obtain ⟨u, hu, rfl⟩ := (stepDownchirp1_ok s t).1 hrun
  exact detectAcquires_of_state (x := .sync) (run.estimate hs hu).state nofun

theorem stepDownchirp2_acquires {t : State} (run : Running s) (hs : s.acq.state = .sync) (hrun : stepDownchirp2 s = .ok t) :
    DetectAcquires t := by
  obtain ⟨b, u, hc, rfl⟩ := (stepDownchirp2_ok s t).1 hrun
  obtain ⟨est, -⟩ := run.estimateAndCorrelate hs hc
  exact detectAcquires_of_state (x := .sync) est.state nofun

theorem stepQuarterDown_acquires {t : State} (hrun : stepQuarterDown s = .ok t) : DetectAcquires t := by
  obtain ⟨u, hu, rfl⟩ := (stepQuarterDown_ok s t).1 hrun
  unfold State.endSync
  split
  · exact detectAcquires_resync _ _
  · exact detectAcquires_of_state (x := .fracCfoCorrec) rfl nofun

theorem stepFrac_acquires {t : State} (hs : s.acq.state = .fracCfoCorrec) (hrun : stepFrac s = .ok t) :
    DetectAcquires t := by
  unfold stepFrac at hrun
  split at hrun
  · obtain ⟨z, -, rfl⟩ := (stepEmit_ok s t).1 hrun
    exact detectAcquires_of_state (x := .fracCfoCorrec) hs nofun
  · exact Except.ok.inj hrun ▸ detectAcquires_resync _ _

theorem stepCase_acquires {t : State} (h : DetectAcquires s) (run : Running s) (hrun : stepCase s = .ok t) :
    DetectAcquires t :=
  stepCase_cases hrun (stepDetect_acquires h run) (fun hs _ => stepNetId1_acquires run hs)
    (fun hs _ => stepNetId2_acquires run hs) (fun hs _ => stepDownchirp1_acquires run hs)
    (fun hs _ => stepDownchirp2_acquires run hs) (fun _ _ => stepQuarterDown_acquires) stepFrac_acquires

theorem fsmStep_acquires {t : State} (h : DetectAcquires s) (run : Running s) (hrun : fsmStep s = .ok t) :
    DetectAcquires t := by
  obtain ⟨u, hu, rfl⟩ := (fsmStep_ok s t).1 hrun
  have cleared : DetectAcquires s.clearReport := h.congr rfl
  exact (stepCase_acquires cleared run.clearReport hu).congr rfl

theorem applyEvent_acquires (h : DetectAcquires s) (ev : Event) : DetectAcquires (s.applyEvent ev) := by
  unfold State.applyEvent
  split
  · next hs =>
    split
    · exact detectAcquires_resync _ _
    · exact detectAcquires_of_state (x := .fracCfoCorrec) hs nofun
  · exact h

theorem drainEvents_acquires (h : DetectAcquires s) : DetectAcquires s.drainEvents := by
  have fold (evs : List Event) (t : State) (ht : DetectAcquires t) : DetectAcquires (evs.foldl State.applyEvent t) := by
    induction evs generalizing t with
    | nil => exact ht
    | cons ev evs ih => exact ih _ (applyEvent_acquires ht ev)
  exact fold s.evq { s with evq := [] } (h.congr rfl)

theorem invoke_acquires {t : State} (h : DetectAcquires s) (run : Running s) (hrun : invoke s = .ok t) :
    DetectAcquires t := by
  have drained := drainEvents_acquires h
  obtain ⟨-, rfl⟩ | ⟨-, u, hu, ht⟩ := (invoke_ok s t).1 hrun
  · exact drained.congr rfl
  · have urun := run.drainEvents.setTap.downs hu
    have uacq : DetectAcquires u := by
      obtain ⟨-, rfl⟩ := (runDowns_ok _ _).1 hu
      exact drained.congr rfl
    exact fsmStep_acquires uacq urun ht

end

/-! ### Every step (O49) -/

theorem RunMode.writeReg {s : State} (h : RunMode s) {r : Reg} (hr : r.access.admits s) (w : Word) :
    RunMode (writeReg s r w) := by
  intro hs ht
  obtain ⟨-, started, test, -⟩ := writeReg_frame s r w
  have hs' : s.started = true := started ▸ hs
  refine h.congr started test ?_ hs ht
  cases r <;> first | rfl | simp [Reg.access, Access.admits, hs'] at hr

/-- In `RUN` mode the host writes only `INBUF`, which no invariant speaks of. -/
theorem RunMode.setMem {s : State} (h : RunMode s) {sp : Space} (hw : HostWritable s sp) (m : Mem) :
    RunMode (s.setMem sp m) := by
  obtain ⟨-, rfl | ⟨-, htest⟩⟩ := hw
  · exact h.congr rfl rfl rfl
  · intro _ ht
    exact absurd (ht.symm.trans htest) nofun

theorem runMode_kept : StepKeeps fun s => Protocol s ∧ RunMode s where
  bus s ops h := ⟨protocol_kept.bus s ops h.1, h.2.congr rfl rfl rfl⟩
  busData s w h := ⟨protocol_kept.busData s w h.1, h.2.congr rfl rfl rfl⟩
  err s c h := ⟨protocol_kept.err s c h.1, h.2.congr rfl rfl rfl⟩
  register s r w hr h := ⟨protocol_kept.register s r w hr h.1, h.2.writeReg hr w⟩
  sample s sp off w hw h := ⟨protocol_kept.sample s sp off w hw h.1, h.2.setMem hw _⟩
  reset s h := ⟨protocol_kept.reset s h.1, nofun⟩
  start s m hs hv h := ⟨protocol_kept.start s m hs hv h.1, fun _ _ _ => acquiring_construct s m⟩
  frameInfo s hs room h := ⟨protocol_kept.frameInfo s hs room h.1, h.2.congr rfl rfl rfl⟩
  work s t hs run h := by
    obtain ⟨hp, hr⟩ := h
    obtain ⟨-, test, -⟩ := body_sameMode (.inl run)
    exact ⟨protocol_kept.work s t hs run hp, fun _ ht => invoke_acquires (hr hs (test ▸ ht)) (hp.running hs) run⟩
  unit i s t hs hm run h := by
    obtain ⟨-, test, -⟩ := body_sameMode (.inr ⟨i, run⟩)
    exact ⟨protocol_kept.unit i s t hs hm run h.1, fun _ ht => absurd (ht.symm.trans (test.trans hm)) nofun⟩

/-- Settles O49: in `RUN` mode only `WORK` moves the acquisition, and it enters `DETECT` by a resynchronisation or stays in it
by tracking. -/
theorem stepsKeepTheRunModeInvariant : Obligations.StepsKeepTheRunModeInvariant := by
  intro s t hp hr h
  obtain ⟨-, kept⟩ := runMode_kept.step ⟨hp, hr⟩ h
  exact kept

end Sys2Proof.Machine
end

section
/-! The writes the bus checks before it performs them: a command word written to `CMD` (O3), a word written to a sample memory
(O12). -/

namespace Sys2Proof.Machine

/-! ### A write to `CMD` (rules R63, R93) -/

theorem busWrite_cmdAddr (w : Word) (s : State) : busWrite cmdAddr w s = writeRegister .cmd w s :=
  busWrite_register (reg := .cmd) (by decide) (by decide) w s

/-- The field of `CMD` is the whole word, so every word is executed. -/
theorem writeRegister_cmd (w : Word) (s : State) : writeRegister .cmd w s = execWord w s := by
  have hfits : Reg.cmd.fits w = true := decide_eq_true w.isLt
  simp [writeRegister, Reg.access, hfits]

theorem execWord_decoded {w : Word} {i : Instr} (h : decode w = .ok i) (s : State) : execWord w s = exec i s := by
  rw [execWord, h]

/-- Settles O3: a write to `CMD` passes every check of a register write and is executed. -/
theorem stepRunsTheDecodedCommand : Obligations.StepRunsTheDecodedCommand := by
  intro s rest w i hbus hw
  rw [step_write hbus, busWrite_cmdAddr, writeRegister_cmd, execWord_decoded hw]

/-! ### A write to a sample memory (rule R65) -/

theorem busWrite_sample {a : Addr} {sp : Space} (ha : spaceOf a = .sample sp) (w : Word) (s : State) :
    busWrite a w s = writeSample sp (offsetOf a) w s := by
  rw [busWrite, ha]

theorem step_write_sample {s : State} {rest : List BusOp} {sp : Space} {off : Nat} {w : Word} (hoff : off < 2 ^ 20)
    (hbus : s.bus = .write (sampleAddr sp off) w :: rest) : step s = writeSample sp off w (s.setBus rest) := by
  rw [step_write hbus, busWrite_sample (spaceOf_sampleAddr sp hoff), offsetOf_sampleAddr sp hoff]

section

variable {s : State} {sp : Space} (off : Nat) (w : Word)

theorem writeSample_notStarted (hs : s.started = false) : writeSample sp off w s = cmdError .notStarted s := if_pos hs

theorem writeSample_readOnly (hs : s.started = true) (hsp : sp.hostAccess = .readOnly) :
    writeSample sp off w s = cmdError .ro s := by
  simp [writeSample, hs, hsp]

theorem writeSample_testOnly (hs : s.started = true) (hsp : sp.hostAccess = .testOnly) (ht : s.test = false) :
    writeSample sp off w s = cmdError .mode s := by
  simp [writeSample, hs, hsp, ht]

/-- Past the first three checks there is the capacity left. -/
theorem writeSample_writable (h : HostWritable s sp) :
    writeSample sp off w s =
      if 2 * s.capacity sp ≤ off then cmdError .addr s else .next (s.setMem sp ((s.mem sp).store off [w])) := by
  obtain ⟨hs, rfl | ⟨rfl | rfl, ht⟩⟩ := h
  · simp [writeSample, hs, Space.hostAccess]
  · simp [writeSample, hs, ht, Space.hostAccess]
  · simp [writeSample, hs, ht, Space.hostAccess]

end

/-- The stored word is read back. -/
theorem load_setMem_store_same (s : State) (sp : Space) (off : Nat) (w : Word) :
    (s.setMem sp ((s.mem sp).store off [w])).load sp off = some w := by
  rw [State.load, State.setMem_mem_same]
  exact Mem.load_store_inside _ off [w] 0 (by simp)

/-- Every other word of every memory reads as before. -/
theorem load_setMem_store_other (s : State) {sp sp' : Space} {off off' : Nat} (w : Word) (h : (sp', off') ≠ (sp, off)) :
    (s.setMem sp ((s.mem sp).store off [w])).load sp' off' = s.load sp' off' := by
  rw [State.load, State.setMem_mem]
  split
  · next hsp =>
    subst hsp
    have hoff : off' ≠ off := fun e => h (e ▸ rfl)
    exact Mem.load_store_outside _ off [w] off' (by simp; omega)
  · rfl

/-- Settles O12: each check refuses in its turn, and a write that passes them all stores the one word. -/
theorem sampleWritesAreCheckedThenStored : Obligations.SampleWritesAreCheckedThenStored := by
  intro s rest sp off w hoff hbus
  rw [step_write_sample hoff hbus]
  refine ⟨fun hs => writeSample_notStarted (s := s.setBus rest) off w hs, fun hs hsp => ?_, fun hs hsp ht => ?_,
    fun hs hsp => ?_⟩
  · refine writeSample_readOnly (s := s.setBus rest) off w hs ?_
    obtain rfl | rfl | rfl | rfl | rfl := hsp <;> rfl
  · refine writeSample_testOnly (s := s.setBus rest) off w hs ?_ ht
    obtain rfl | rfl := hsp <;> rfl
  · have writable : HostWritable (s.setBus rest) sp := ⟨hs, hsp⟩
    rw [writeSample_writable off w writable, setBus_capacity]
    refine ⟨fun hle => if_pos hle, fun hlt => ⟨_, if_neg (Nat.not_le.2 hlt), rfl, load_setMem_store_same _ sp off w, ?_⟩⟩
    intro sp' off' hne
    rw [load_setMem_store_other _ w hne, setBus_load]

end Sys2Proof.Machine
end

section
/-! The reference chirps between `START` and `RESET` (rule R75): a step leaves `UP` and `DOWN` alone or generates them again, and
generating again what a running block holds changes no word. -/

namespace Sys2Proof.Machine

/-! ### Storing again what a memory holds -/

theorem Mem.elem_eq_some_iff (m : Mem) (k : Nat) (z : Sample) :
    m.elem k = some z ↔ m.load (2 * k) = some z.1 ∧ m.load (2 * k + 1) = some z.2 := by
  change (match m.load (2 * k), m.load (2 * k + 1) with
    | some re, some im => some (re, im)
    | _, _ => none) = some z ↔ _
  cases m.load (2 * k) <;> cases m.load (2 * k + 1) <;> simp [Prod.ext_iff]

/-- The words of a vector a memory holds are the words read there. -/
theorem Holds.wordsOf_get {s : State} {sp : Space} {xs : List Sample} (h : Holds s sp 0 xs) {off : Nat}
    (hoff : off < 2 * xs.length) : (wordsOf xs)[off]? = s.load sp off := by
  obtain ⟨j, hparity⟩ := Nat.even_or_odd' off
  have hj : j < xs.length := by omega
  have stored : xs[j]? = some xs[j] := List.getElem?_eq_getElem hj
  have held : (s.mem sp).elem j = some xs[j] := by simpa using h j xs[j] stored
  obtain ⟨re, im⟩ := (Mem.elem_eq_some_iff _ j _).1 held
  obtain ⟨wordRe, wordIm⟩ := Machine.wordsOf_get xs j
  obtain rfl | rfl := hparity
  · rw [wordRe, stored, State.load, re]; rfl
  · rw [wordIm, stored, State.load, im]; rfl

theorem Holds.load_storeElems {s : State} {sp : Space} {xs : List Sample} (h : Holds s sp 0 xs) (off : Nat) :
    (s.storeElems sp 0 xs).load sp off = s.load sp off := by
  rw [State.load, State.storeElems_mem, if_pos rfl, Mem.load_store]
  split
  · next hin =>
    rw [wordsOf_length] at hin
    exact h.wordsOf_get (by omega)
  · rfl

/-- Where the block is ready, `GEN` changes no word of the chirps. -/
theorem Ready.load_generate {s : State} (h : Ready s) (off : Nat) :
    s.generate.load .up off = s.load .up off ∧ s.generate.load .down off = s.load .down off := by
  have down : Holds (s.storeElems .up 0 (s.nums.gen s.cfg.sf.toNat 1).1) .down 0 (s.nums.gen s.cfg.sf.toNat 1).2 :=
    h.down.congr rfl
  exact ⟨h.up.load_storeElems off, down.load_storeElems off⟩

/-! ### What the operations do to the chirps -/

/-- The chirps, with what they are generated from, are those of `s` or those generated again. -/
def ChirpsKept (s t : State) : Prop := t.chirps = s.chirps ∨ t.chirps = s.generate.chirps

theorem load_of_chirps_eq {s t : State} (e : t.chirps = s.chirps) (off : Nat) :
    t.load .up off = s.load .up off ∧ t.load .down off = s.load .down off := by
  simp only [State.chirps, Prod.mk.injEq] at e
  obtain ⟨-, -, up, down⟩ := e
  exact ⟨congrArg (Mem.load · off) up, congrArg (Mem.load · off) down⟩

theorem ChirpsKept.load {s t : State} (h : ChirpsKept s t) (ready : Ready s) (off : Nat) :
    t.load .up off = s.load .up off ∧ t.load .down off = s.load .down off := by
  obtain same | again := h
  · exact load_of_chirps_eq same off
  · obtain ⟨up, down⟩ := load_of_chirps_eq again off
    obtain ⟨up', down'⟩ := ready.load_generate off
    exact ⟨up.trans up', down.trans down'⟩

/-- `GEN` reads nothing beside the configuration, the numerics and the chirps themselves. -/
theorem generate_chirps_congr {s t : State} (e : t.chirps = s.chirps) : t.generate.chirps = s.generate.chirps := by
  simp only [State.chirps, Prod.mk.injEq] at e
  obtain ⟨cfg, num, up, down⟩ := e
  have nums : t.nums = s.nums := by rw [State.nums, num]; rfl
  simp only [State.chirps, State.generate, State.storeElems, State.setMem, State.mem, cfg, num, nums, up, down]

theorem ChirpsKept.after {r s t : State} (h : ChirpsKept s t) (e : s.chirps = r.chirps) : ChirpsKept r t :=
  h.imp (·.trans e) (·.trans (generate_chirps_congr e))

theorem ChirpsKept.congr {s t u : State} (h : ChirpsKept s t) (e : u.chirps = t.chirps) : ChirpsKept s u :=
  h.imp e.trans e.trans

/-! ### The state machine -/

section

variable {s t : State}

theorem setCfo_chirps (s : State) (r : CfoResult Word) : (s.setCfo r).chirps = s.chirps := rfl

theorem setSto_chirps (s : State) (r : Peak Word × Word × Word) : (s.setSto r).chirps = s.chirps := rfl

theorem setEstDone_chirps (s : State) : s.setEstDone.chirps = s.chirps := rfl

theorem estimate_chirps (h : estimate s = .ok t) : t.chirps = s.chirps := by
  obtain ⟨-, rfl⟩ | ⟨-, u, v, hu, hv, rfl⟩ := (estimate_ok s t).1 h
  · rfl
  · obtain ⟨r, rfl⟩ := runCfoest_eq hu
    obtain ⟨q, rfl⟩ := runStoest_eq hv
    rw [setEstDone_chirps, setSto_chirps, setCfo_chirps]

theorem estimateAndCorrelate_chirps {ref : RefSel} {bs : Option Nat × State} (h : estimateAndCorrelate ref s = .ok bs) :
    bs.2.chirps = s.chirps := by
  obtain ⟨u, z, hu, -, hc⟩ := (estimateAndCorrelate_ok ref s bs).1 h
  have same := estimate_chirps hu
  obtain ⟨-, rfl⟩ := (correlate_ok _ _ _ _).1 hc
  exact same

theorem stepDetect_chirps (h : stepDetect s = .ok t) : t.chirps = s.chirps := by
  obtain ⟨be, -, -, -, rfl⟩ := stepDetect_spec h
  obtain ⟨tracked, -⟩ := track_frame (s.setCorrelator be) be.1 (s.vec .sym s.n)
  unfold State.endDetect
  split <;> exact tracked

theorem stepNetId1_chirps (h : stepNetId1 s = .ok t) : t.chirps = s.chirps := by
  obtain ⟨b, u, hu, rfl⟩ := (stepNetId1_ok s t).1 h
  have same := estimateAndCorrelate_chirps hu
  dsimp only
  split
  · exact same
  · split <;> exact same

theorem stepNetId2_chirps (h : stepNetId2 s = .ok t) : t.chirps = s.chirps := by
  obtain ⟨b, u, hu, rfl⟩ := (stepNetId2_ok s t).1 h
  have same := estimateAndCorrelate_chirps hu
  split <;> exact same

theorem stepDownchirp1_chirps (h : stepDownchirp1 s = .ok t) : t.chirps = s.chirps := by
  obtain ⟨u, hu, rfl⟩ := (stepDownchirp1_ok s t).1 h
  have same := estimate_chirps hu
  exact same

theorem stepDownchirp2_chirps (h : stepDownchirp2 s = .ok t) : t.chirps = s.chirps := by
  obtain ⟨b, u, hu, rfl⟩ := (stepDownchirp2_ok s t).1 h
  exact estimateAndCorrelate_chirps hu

/-- The one step that generates the chirps again (rule R199). -/
theorem stepQuarterDown_chirps (h : stepQuarterDown s = .ok t) : ChirpsKept s t := by
  obtain ⟨u, hu, rfl⟩ := (stepQuarterDown_ok s t).1 h
  refine ChirpsKept.after ?_ (estimate_chirps hu)
  unfold State.endSync
  split
  · exact .inl rfl
  · exact .inr rfl

theorem stepFrac_chirps (h : stepFrac s = .ok t) : t.chirps = s.chirps := by
  unfold stepFrac at h
  split at h
  · obtain ⟨z, -, rfl⟩ := (stepEmit_ok s t).1 h
    rfl
  · exact Except.ok.inj h ▸ rfl

theorem stepCase_chirps (h : stepCase s = .ok t) : ChirpsKept s t :=
  stepCase_cases h (fun _ h => .inl (stepDetect_chirps h)) (fun _ _ h => .inl (stepNetId1_chirps h))
    (fun _ _ h => .inl (stepNetId2_chirps h)) (fun _ _ h => .inl (stepDownchirp1_chirps h))
    (fun _ _ h => .inl (stepDownchirp2_chirps h)) (fun _ _ => stepQuarterDown_chirps)
    (fun _ h => .inl (stepFrac_chirps h))

theorem fsmStep_chirps (h : fsmStep s = .ok t) : ChirpsKept s t := by
  obtain ⟨u, hu, rfl⟩ := (fsmStep_ok s t).1 h
  exact ((stepCase_chirps hu).after rfl).congr rfl

/-! ### Whole steps -/

theorem applyEvent_chirps (s : State) (ev : Event) : (s.applyEvent ev).chirps = s.chirps := by
  unfold State.applyEvent
  split
  · split <;> rfl
  · rfl

theorem drainEvents_chirps (s : State) : s.drainEvents.chirps = s.chirps := by
  have fold (evs : List Event) (t : State) : (evs.foldl State.applyEvent t).chirps = t.chirps := by
    induction evs generalizing t with
    | nil => rfl
    | cons ev evs ih => exact (ih _).trans (applyEvent_chirps t ev)
  exact fold s.evq { s with evq := [] }

theorem runDowns_chirps (h : runDowns s = .ok t) : t.chirps = s.chirps := by
  obtain ⟨-, rfl⟩ := (runDowns_ok s t).1 h
  rfl

theorem invoke_chirps (h : invoke s = .ok t) : ChirpsKept s t := by
  have drained := drainEvents_chirps s
  obtain ⟨-, rfl⟩ | ⟨-, u, hu, ht⟩ := (invoke_ok s t).1 h
  · exact .inl drained
  · exact (fsmStep_chirps ht).after ((runDowns_chirps hu).trans drained)

theorem runUnit_chirps {i : Instr} (h : runUnit i s = .ok t) : ChirpsKept s t := by
  cases i with
  | gen => exact .inr (Except.ok.inj h ▸ rfl)
  | demod ref src =>
    obtain ⟨be, rfl⟩ := runUnit_demod_ok ref src s t h
    exact .inl rfl
  | cfoest =>
    obtain ⟨r, rfl⟩ := runCfoest_eq h
    exact .inl rfl
  | cfoalt =>
    obtain ⟨r, rfl⟩ := runUnit_cfoalt_ok s t h
    exact .inl rfl
  | stoest =>
    obtain ⟨r, rfl⟩ := runStoest_eq h
    exact .inl rfl
  | downs => exact .inl (runDowns_chirps h)
  | fsmstep => exact fsmStep_chirps h
  | drain => exact .inl (Except.ok.inj h ▸ drainEvents_chirps s)
  | _ => exact .inl (Except.ok.inj h ▸ rfl)

theorem Executed.chirps {i : Instr} (h : Executed s i t) (hs : s.started = true) (ht : t.started = true) :
    ChirpsKept s t := by
  cases h with
  | refused | nop | frameInfo => exact .inl rfl
  | reset => cases ht
  | start m h => rw [hs] at h; cases h
  | work u _ run => exact (invoke_chirps run).congr rfl
  | unit i u _ _ run => exact (runUnit_chirps run).congr rfl

/-- The configuration is locked in a started block, and no register holds a chirp. -/
theorem writeReg_chirps {r : Reg} (hs : s.started = true) (hr : r.access.admits s) (w : Word) :
    (writeReg s r w).chirps = s.chirps := by
  obtain ⟨-, -, cfg⟩ := writeReg_sameMode s r w hs hr
  obtain ⟨-, -, -, -, -, mems, -, num, -⟩ := writeReg_frame s r w
  simp only [State.chirps, cfg, num, mems]

/-- The host writes neither `UP` nor `DOWN` (rule R65 (2)). -/
theorem setMem_chirps {sp : Space} (h : HostWritable s sp) (m : Mem) : (s.setMem sp m).chirps = s.chirps := by
  obtain ⟨-, rfl | ⟨rfl | rfl, -⟩⟩ := h <;> rfl

theorem Wrote.chirps {a : Addr} {w : Word} (h : Wrote a w s t) (hs : s.started = true) (ht : t.started = true) :
    ChirpsKept s t := by
  cases h with
  | refused => exact .inl rfl
  | register r hr => exact .inl (writeReg_chirps hs hr w)
  | sample sp off hsp => exact .inl (setMem_chirps hsp _)
  | command i _ _ _ h => exact h.chirps hs ht

theorem step_chirps (hs : s.started = true) (h : step s = .next t) (ht : t.started = true) : ChirpsKept s t := by
  obtain ⟨-, rfl⟩ | ⟨a, rest, w, -, -, rfl⟩ | ⟨a, w, rest, -, h⟩ := (step_next s t).1 h
  · exact .inl rfl
  · exact .inl rfl
  · exact ((busWrite_next a w _ t h).chirps hs ht).after rfl

end

/-- Settles O52: a running block holds the chirps of its configuration, so generating them again stores what is there. -/
theorem referenceChirpsAreConstant : Obligations.ReferenceChirpsAreConstant := by
  intro s t hp hs h ht
  exact (step_chirps hs h ht).load (hp.running hs).ready

end Sys2Proof.Machine
end

section
/-! `CFOALT` (rule R162): the model runs over lists of spectra, peaks and lines; each is read here as a function of the symbol's
index, which is the form of the rule. -/

namespace Sys2Proof.Machine

section

variable {R : Type}

/-! ### Symbols and adjacent pairs of a list -/

/-- A dechirped symbol, sample by sample. -/
theorem hadamard_symbolAt (num : Num R) {n m i : Nat} {pre down : List (Cx R)} (hpre : pre.length = m * n)
    (hdown : down.length = n) (hi : i < m) :
    num.hadamard (symbolAt n pre i) down =
      (List.range n).map fun j => num.cmul (pre.getD (i * n + j) num.czero) (down.getD j num.czero) := by
  have hle : (i + 1) * n ≤ m * n := Nat.mul_le_mul_right n hi
  rw [Nat.add_mul] at hle
  apply List.ext_getElem
  · simp [symbolAt, hpre, hdown]; omega
  · intro j hj hj'
    have hlt : j < n := by simpa using hj'
    have inPre : i * n + j < pre.length := by omega
    have inDown : j < down.length := by omega
    simp [Num.hadamard, symbolAt, inPre, inDown]

/-- The pairs of neighbours in a tabulated list. -/
theorem zip_drop_one_map_range {α : Type} (f : Nat → α) (m : Nat) :
    ((List.range m).map f).zip (((List.range m).map f).drop 1) = (List.range (m - 1)).map fun i => (f i, f (i + 1)) := by
  apply List.ext_getElem
  · simp
  · intro i _ _
    simp

theorem getD_map_range {α : Type} (f : Nat → α) {m k : Nat} (hk : k < m) (d : α) :
    ((List.range m).map f).getD k d = f k := by
  simp [hk]

/-! ### The estimate by symbol index -/

section

variable (num : Num R) (n m : Nat) (pre down : List (Cx R))

/-- The transform of the dechirped symbol `i`. -/
def Num.altSpectrum (i : Nat) : List (Cx R) :=
  num.dft ((List.range n).map fun j => num.cmul (pre.getD (i * n + j) num.czero) (down.getD j num.czero))

/-- The peak bin of symbol `i`. -/
def Num.altPeak (i : Nat) : Nat := num.argmax ((num.altSpectrum n pre down i).map num.sqmag)

/-- The common bin `kc`: the peak bin of the strongest of `m` symbols. -/
def Num.altBin : Nat :=
  num.altPeak n pre down (num.argmax ((List.range m).map fun i =>
    num.sqmag ((num.altSpectrum n pre down i).getD (num.altPeak n pre down i) num.czero)))

/-- The products of adjacent symbols at the common bin, added from symbol 0 on (log 2). -/
def Num.altSum : Cx R :=
  let line := fun i => (num.altSpectrum n pre down i).getD (num.altBin n m pre down) num.czero
  (List.range (m - 1)).foldl (fun a i => num.cadd a (num.cmul (line i) (num.conj (line (i + 1))))) num.czero

end

theorem map_altPeak (num : Num R) (n m : Nat) (pre down : List (Cx R)) :
    ((List.range m).map (num.altSpectrum n pre down)).map (fun y => num.argmax (y.map num.sqmag)) =
      (List.range m).map (num.altPeak n pre down) := List.map_map

/-- What `cfoalt` computes, by symbol index. -/
theorem Num.cfoalt_eq (num : Num R) {n m : Nat} {pre down : List (Cx R)} (hpre : pre.length = m * n)
    (hdown : down.length = n) (hm : 0 < m) :
    num.cfoalt n m pre down =
      (if num.isZero (num.altSum n m pre down).1 && num.isZero (num.altSum n m pre down).2 then num.zero
        else num.minus (num.argTurns (num.altSum n m pre down)), num.altBin n m pre down) := by
  have spectra : (List.range m).map (fun i => num.dft (num.hadamard (symbolAt n pre i) down)) =
      (List.range m).map (num.altSpectrum n pre down) :=
    List.map_congr_left fun i hi => congrArg num.dft (hadamard_symbolAt num hpre hdown (List.mem_range.1 hi))
  have strongest : num.argmax ((List.range m).map fun i =>
      num.sqmag ((num.altSpectrum n pre down i).getD (num.altPeak n pre down i) num.czero)) < m := by
    refine (num.argmax_lt _ ?_).trans_eq (by simp)
    simp; omega
  have bin := getD_map_range (num.altPeak n pre down) strongest 0
  unfold Num.cfoalt
  dsimp only
  rw [spectra, map_altPeak, List.zip_map']
  simp only [List.map_map, Function.comp_def, bin, zip_drop_one_map_range, List.foldl_map]
  rfl

end

/-! ### The command (O28) -/

theorem runUnit_cfoalt_written {s : State} (hpre : Written s .pre (s.nused * s.n)) (hdown : Written s .down s.n) :
    runUnit .cfoalt s =
      .ok (s.setAlt (s.nums.cfoalt s.n s.nused (s.vec .pre (s.nused * s.n)) (s.vec .down s.n))) :=
  (bind_ok _ _ _).2 ⟨_, readPreamble_written hpre, (bind_ok _ _ _).2 ⟨_, readVector_written hdown, rfl⟩⟩

/-- Settles O28: with its operands written `CFOALT` completes, and its lists are those of the rule, symbol by symbol. -/
theorem cfoaltWritesThePhaseDifference : Obligations.CfoaltWritesThePhaseDifference := by
  intro s ht hpre hdown hused
  have run := runUnit_cfoalt_written hpre hdown
  rw [Num.cfoalt_eq s.nums hpre.vec_length hdown.vec_length hused] at run
  exact exec_unit_ok (i := .cfoalt) rfl ht run

end Sys2Proof.Machine
end

section
/-! The command words (rules R90 to R93): the decoder inverts the encoder, and the words it accepts are those that pass the
checks written from the opcode map. -/

namespace Sys2Proof.Machine

/-! ### The decoder and the encoder (O1, O2) -/

theorem Instr.wf_eq_true (i : Instr) : i.wf = true := by cases i <;> rfl

/-- The fields of the word of every command. -/
theorem wordFields (i : Instr) : Laws.WordFields.Statement i := by
  cases i with
  | nop => exact Laws.WordFields.nop
  | reset => exact Laws.WordFields.reset
  | start m => exact Laws.WordFields.start m
  | work => exact Laws.WordFields.work
  | frameInfo => exact Laws.WordFields.frameInfo
  | gen => exact Laws.WordFields.gen
  | demod ref src => exact Laws.WordFields.demod ref src
  | interp => exact Laws.WordFields.interp
  | cfoest => exact Laws.WordFields.cfoest
  | cfoalt => exact Laws.WordFields.cfoalt
  | stoest => exact Laws.WordFields.stoest
  | fdly => exact Laws.WordFields.fdly
  | downs => exact Laws.WordFields.downs
  | fsmstep => exact Laws.WordFields.fsmstep
  | drain => exact Laws.WordFields.drain

theorem decode_encode (i : Instr) : decode (encode i) = .ok i := by
  cases i with
  | start m => cases m <;> rfl
  | demod ref src => cases ref <;> cases src <;> rfl
  | _ => rfl

/-- Bit 0 and zeros above it are the argument of `START`. -/
theorem decodeStart_ok {arg : BitVec 8} {i : Instr} (h : decodeStart arg = .ok i) :
    ∃ m, i = .start m ∧ arg = encodeArg (.start m) := by
  have inverse : ∀ arg : BitVec 8, arg.extractLsb' 1 7 = 0 →
      arg = encodeArg (.start (if arg.getLsbD 0 then .test else .run)) := by decide
  unfold decodeStart at h
  split at h
  · next zeros => exact ⟨_, (Except.ok.inj h).symm, inverse arg zeros⟩
  · cases h

/-- Bits 0 and 1 and zeros above them are the argument of `DEMOD`. -/
theorem decodeDemod_ok {arg : BitVec 8} {i : Instr} (h : decodeDemod arg = .ok i) :
    ∃ ref src, i = .demod ref src ∧ arg = encodeArg (.demod ref src) := by
  have inverse : ∀ arg : BitVec 8, arg.extractLsb' 2 6 = 0 →
      arg = encodeArg (.demod (if arg.getLsbD 0 then .up else .down) (if arg.getLsbD 1 then .symCorr else .sym)) := by
    decide
  unfold decodeDemod at h
  split at h
  · next zeros => exact ⟨_, _, (Except.ok.inj h).symm, inverse arg zeros⟩
  · cases h

theorem decodeOp_ok {op arg : BitVec 8} {i : Instr} (h : decodeOp op arg = .ok i) : op = encodeOp i ∧ arg = encodeArg i := by
  unfold decodeOp at h
  split at h
  case h_3 hop =>
    obtain ⟨m, rfl, harg⟩ := decodeStart_ok h
    exact ⟨BitVec.eq_of_toNat_eq hop, harg⟩
  case h_7 hop =>
    obtain ⟨ref, src, rfl, harg⟩ := decodeDemod_ok h
    exact ⟨BitVec.eq_of_toNat_eq hop, harg⟩
  case h_16 => cases h
  all_goals
    next hop =>
    obtain ⟨harg, rfl⟩ := decodePlain_ok h
    exact ⟨BitVec.eq_of_toNat_eq hop, harg⟩

/-- The three checks of rule R93 (1): zeros above, a row with the word's opcode, and that row's argument bits 0. -/
theorem legalWord_row {w : Word} (h : legalWord w = true) :
    w.extractLsb' 16 16 = 0 ∧ ∃ r ∈ opcodeRows, opField w = r.op ∧ argField w &&& r.argZero = 0 := by
  simp only [legalWord, highHalfZero, opcodeKnown, argBitsZero, Bool.and_eq_true, beq_iff_eq, List.any_eq_true,
    List.all_eq_true, Bool.or_eq_true, bne_iff_ne] at h
  obtain ⟨⟨high, r, hr, hop⟩, args⟩ := h
  exact ⟨high, r, hr, hop, (args r hr).resolve_left (absurd hop)⟩

theorem encode_highHalf (i : Instr) : (encode i).extractLsb' 16 16 = 0 := by
  obtain ⟨-, -, legal, -⟩ := wordFields i
  obtain ⟨high, -⟩ := legalWord_row legal
  exact high

theorem eq_encode_of_decode {w : Word} {i : Instr} (h : decode w = .ok i) : w = encode i := by
  unfold decode at h
  split at h
  · next high =>
    obtain ⟨hop, harg⟩ := decodeOp_ok h
    obtain ⟨op, arg, -⟩ := wordFields i
    exact word_ext (high.trans (encode_highHalf i).symm) (harg.trans arg.symm) (hop.trans op.symm)
  · cases h

/-- Settles O1: a word that decodes has the fields of the command's own word, and three fields determine a word. -/
theorem decodedWordsAreExactlyTheEncodings : Obligations.DecodedWordsAreExactlyTheEncodings :=
  fun _ i => ⟨fun h => ⟨Instr.wf_eq_true i, eq_encode_of_decode h⟩, fun ⟨_, h⟩ => h ▸ decode_encode i⟩

/-- Settles O2: each of the nineteen words is the encoding of its command. -/
theorem commandWordsAreAsListed : Obligations.CommandWordsAreAsListed :=
  ⟨decode_encode .nop, decode_encode .reset, decode_encode (.start .run), decode_encode (.start .test), decode_encode .work,
    decode_encode .frameInfo, decode_encode .gen, decode_encode (.demod .down .sym), decode_encode (.demod .up .sym),
    decode_encode (.demod .down .symCorr), decode_encode (.demod .up .symCorr), decode_encode .interp, decode_encode .cfoest,
    decode_encode .cfoalt, decode_encode .stoest, decode_encode .fdly, decode_encode .downs, decode_encode .fsmstep,
    decode_encode .drain⟩

/-! ### The words that are no command (O4) -/

theorem decodePlain_of_masked {arg : BitVec 8} {i : Instr} (h : arg &&& 0xFF = 0) : ∃ j, decodePlain arg i = .ok j := by
  have zero : arg = 0 := (BitVec.and_allOnes (x := arg)).symm.trans h
  exact ⟨i, if_pos zero⟩

theorem decodeStart_of_masked {arg : BitVec 8} (h : arg &&& 0xFE = 0) : ∃ j, decodeStart arg = .ok j := by
  have zeros : ∀ arg : BitVec 8, arg &&& 0xFE = 0 → arg.extractLsb' 1 7 = 0 := by decide
  exact ⟨_, if_pos (zeros arg h)⟩

theorem decodeDemod_of_masked {arg : BitVec 8} (h : arg &&& 0xFC = 0) : ∃ j, decodeDemod arg = .ok j := by
  have zeros : ∀ arg : BitVec 8, arg &&& 0xFC = 0 → arg.extractLsb' 2 6 = 0 := by decide
  exact ⟨_, if_pos (zeros arg h)⟩

/-- Where the argument bits are 0 that its row requires to be 0, an opcode of the map decodes (rules R91, R92). -/
theorem decodeOp_of_row {r : OpcodeRow} (hr : r ∈ opcodeRows) {arg : BitVec 8} (h : arg &&& r.argZero = 0) :
    ∃ i, decodeOp r.op arg = .ok i := by
  simp only [opcodeRows, List.mem_cons, List.not_mem_nil, or_false] at hr
  obtain rfl | rfl | rfl | rfl | rfl | rfl | rfl | rfl | rfl | rfl | rfl | rfl | rfl | rfl | rfl := hr
  case inr.inr.inl => exact decodeStart_of_masked h
  case inr.inr.inr.inr.inr.inr.inl => exact decodeDemod_of_masked h
  all_goals exact decodePlain_of_masked h

theorem legalWord_iff (w : Word) : legalWord w = true ↔ ∃ i, decode w = .ok i := by
  constructor
  · intro h
    obtain ⟨high, r, hr, hop, harg⟩ := legalWord_row h
    rw [decode, if_pos high, hop]
    exact decodeOp_of_row hr harg
  · rintro ⟨i, h⟩
    obtain ⟨-, -, legal, -⟩ := wordFields i
    rwa [eq_encode_of_decode h]

/-- A word that is no command is refused before any other check (rule R93 (1)). -/
theorem execWord_illegal {w : Word} (h : legalWord w = false) (s : State) : execWord w s = cmdError .illegal s := by
  unfold execWord
  split
  · next i hi => rw [(legalWord_iff w).2 ⟨i, hi⟩] at h; cases h
  · rfl

/-- Settles O4: an encoding passes the checks, what passes them decodes, and anything else is refused at `CMD`. -/
theorem illegalWordsSetOnlyTheErrorCode : Obligations.IllegalWordsSetOnlyTheErrorCode := by
  refine ⟨legalWord_iff, fun s rest w hbus hw => ?_⟩
  rw [step_write hbus, busWrite_cmdAddr, writeRegister_cmd, execWord_illegal hw]
  rfl

end Sys2Proof.Machine
end

section
/-! Which error a command raises (rule R93 (2) to (5) and the command's own checks), and `FRAME_INFO` with room in the queue. -/

namespace Sys2Proof.Machine

/-! ### The error of a command (O13) -/

/-- An outcome that follows the checks: with an error found the command is refused with it, with none it runs and, where it
completes, has cleared `STATUS.ERR` (rule R93 (6)). -/
def FollowsChecks (s : State) (c : ErrCode) (o : Out) : Prop :=
  (c ≠ .none → o = cmdError c s) ∧ (c = .none → ∀ t, o = .next t → t.err = .none)

theorem followsChecks_cmdError (s : State) {c : ErrCode} (hc : c ≠ .none) : FollowsChecks s c (cmdError c s) :=
  ⟨fun _ => rfl, fun h => absurd h hc⟩

theorem followsChecks_finish (s : State) (r : Except Fault State) : FollowsChecks s .none (finish r) := by
  refine ⟨absurd rfl, fun _ t h => ?_⟩
  obtain ⟨u, -, rfl⟩ := (finish_next r t).1 h
  rfl

theorem followsChecks_hostCommand (body : State → Except Fault State) (s : State) :
    FollowsChecks s (if s.started = false then .notStarted else .none) (hostCommand body s) := by
  unfold hostCommand
  cases s.started with
  | false => exact followsChecks_cmdError s nofun
  | true => exact followsChecks_finish s _

theorem followsChecks_unitCommand (body : State → Except Fault State) (s : State) :
    FollowsChecks s (if s.started = false then .notStarted else if s.test = false then .mode else .none)
      (unitCommand body s) := by
  unfold unitCommand
  cases s.started with
  | false => exact followsChecks_cmdError s nofun
  | true =>
    cases s.test with
    | false => exact followsChecks_cmdError s nofun
    | true => exact followsChecks_finish s _

theorem errorOf_unit {i : Instr} (hi : unitLevel i = true) (s : State) :
    errorOf i s = if s.started = false then .notStarted else if s.test = false then .mode else .none := by
  cases i with
  | nop | reset | start | work | frameInfo => cases hi
  | _ => simp [errorOf, unitLevel]

theorem errorOf_nop (s : State) : errorOf .nop s = .none := by simp [errorOf]

theorem errorOf_reset (s : State) : errorOf .reset s = .none := by simp [errorOf]

theorem errorOf_start (m : Mode) (s : State) :
    errorOf (.start m) s = if s.started = true then .locked else if s.cfg.valid = true then .none else .config := by
  cases m <;> simp [errorOf]

theorem errorOf_work (s : State) : errorOf .work s = if s.started = false then .notStarted else .none := by
  simp [errorOf, unitLevel]

theorem errorOf_frameInfo (s : State) :
    errorOf .frameInfo s =
      if s.started = false then .notStarted else if Config.evqDepth ≤ s.evq.length then .evqFull else .none := by
  simp [errorOf, unitLevel]

theorem execStart_followsChecks (m : Mode) (s : State) : FollowsChecks s (errorOf (.start m) s) (execStart m s) := by
  rw [errorOf_start, execStart]
  split
  · exact followsChecks_cmdError s nofun
  · split
    · exact followsChecks_finish s _
    · exact followsChecks_cmdError s nofun

/-- The event of the mailbox registers behind the queue (rule R226). -/
def State.queueEvent (s : State) : State := { s with evq := s.evq ++ [s.mail.event] }

theorem execFrameInfo_notStarted {s : State} (hs : s.started = false) : execFrameInfo s = cmdError .notStarted s := by
  simp [execFrameInfo, hostCommand, hs]

theorem execFrameInfo_full {s : State} (hs : s.started = true) (full : Config.evqDepth ≤ s.evq.length) :
    execFrameInfo s = cmdError .evqFull s := by
  simp [execFrameInfo, hs, full]

theorem execFrameInfo_room {s : State} (hs : s.started = true) (room : s.evq.length < Config.evqDepth) :
    execFrameInfo s = finish (.ok s.queueEvent) := by
  simp [execFrameInfo, hostCommand, hs, room, State.queueEvent]

theorem execFrameInfo_followsChecks (s : State) : FollowsChecks s (errorOf .frameInfo s) (execFrameInfo s) := by
  rw [errorOf_frameInfo]
  split
  · next hs => exact execFrameInfo_notStarted hs ▸ followsChecks_cmdError s nofun
  next hs =>
  have hs : s.started = true := Bool.not_eq_false _ ▸ hs
  split
  · next full => exact execFrameInfo_full hs full ▸ followsChecks_cmdError s nofun
  · next room => exact execFrameInfo_room hs (Nat.lt_of_not_le room) ▸ followsChecks_finish s _

theorem exec_followsChecks (i : Instr) (s : State) : FollowsChecks s (errorOf i s) (exec i s) := by
  cases hi : unitLevel i with
  | true =>
    rw [errorOf_unit hi, exec_unit i s hi]
    exact followsChecks_unitCommand _ s
  | false =>
    cases i with
    | nop => exact errorOf_nop s ▸ followsChecks_finish s (.ok s)
    | reset => exact errorOf_reset s ▸ followsChecks_finish s (.ok s.resetBlock)
    | start m => exact execStart_followsChecks m s
    | work => exact errorOf_work s ▸ followsChecks_hostCommand invoke s
    | frameInfo => exact execFrameInfo_followsChecks s
    | _ => cases hi

/-- Settles O13: the errors of the model's guards are those of `errorOf`, guard by guard. -/
theorem commandErrorsFollowTheOrderOfChecks : Obligations.CommandErrorsFollowTheOrderOfChecks :=
  exec_followsChecks

/-! ### `FRAME_INFO` (O19) -/

/-- Settles O19: with room in the queue the event is appended. -/
theorem frameInfoQueuesTheMailboxEvent : Obligations.FrameInfoQueuesTheMailboxEvent :=
  fun _ hs room => execFrameInfo_room hs room

end Sys2Proof.Machine
end

section
/-! `WORK` as the unit commands it is made of (rule R101), and the step at `QUARTER_DOWN` (rule R199): what it leaves, and that
it alone emits a tag (rule R229). -/

namespace Sys2Proof.Machine

/-! ### `WORK` as a sequence (O22) -/

/-- Unit commands that complete in `TEST` mode have run tap, downsampler and step, which do the same in either mode: the converse
of `exec_relabel_ok`, command by command. -/
theorem run_of_unit_commands {d b c t : State} (hs : d.started = true)
    (hb : exec .fdly (d.relabel true .none) = .next b) (hc : exec .downs b = .next c) (ht : exec .fsmstep c = .next t) :
    ∃ u v, runDowns d.setTap = .ok u ∧ fsmStep u = .ok v ∧ t = v.relabel true .none := by
  have tapped : exec .fdly (d.relabel true .none) = .next (d.setTap.relabel true .none) :=
    exec_relabel_ok (i := .fdly) rfl hs (fun _ => rfl) rfl
  obtain rfl := Host.Outcome.next.inj (tapped.symm.trans hb)
  obtain ⟨u', hu', rfl⟩ := runUnit_of_next (i := .downs) (s := d.setTap.relabel true .none) rfl ⟨hs, rfl⟩ hc
  obtain ⟨u, hu, rfl⟩ := (blind_runDowns true .none).ok hu'
  have testing : Testing ((u.relabel true .none).setErr .none) := ⟨(body_sameMode (.inr ⟨.downs, hu⟩)).1.trans hs, rfl⟩
  obtain ⟨v', hv', rfl⟩ := runUnit_of_next (i := .fsmstep) rfl testing ht
  obtain ⟨v, hv, rfl⟩ := (blind_fsmStep true .none).ok (s := u) hv'
  exact ⟨u, v, hu, hv, rfl⟩

/-- Settles O22: mode and error code aside, the unit commands run the parts `invoke` is made of, in its order. -/
theorem workIsTheSequenceOfUnitCommands : Obligations.WorkIsTheSequenceOfUnitCommands := by
  intro s a b c t hs ha hwin hroom hb hc ht
  obtain ⟨hstarted, -, hcfg⟩ := drainEvents_sameMode s
  obtain rfl := Host.Outcome.next.inj ((exec_drain_test hs).symm.trans ha)
  have progress : s.drainEvents.canProgress = true := (canProgress_iff hcfg).2 ⟨hwin, hroom⟩
  obtain ⟨u, v, hu, hv, rfl⟩ := run_of_unit_commands (hstarted.trans hs) hb hc ht
  have run : invoke s = .ok v := (invoke_ok s v).2 (.inr ⟨progress, u, hu, hv⟩)
  obtain ⟨-, htest, -⟩ := body_sameMode (.inl run)
  rw [← htest]
  exact hostCommand_ok hs run

/-! ### The step at `QUARTER_DOWN` (O41) -/

theorem holds_generate (s : State) :
    Holds s.generate .up 0 (s.nums.gen s.cfg.sf.toNat 1).1 ∧ Holds s.generate .down 0 (s.nums.gen s.cfg.sf.toNat 1).2 :=
  ⟨holds_storeElems (s := s) .up _, holds_storeElems (s := s.storeElems .up 0 (s.nums.gen s.cfg.sf.toNat 1).1) .down _⟩

theorem load_storeElems_frame {s : State} {sp sp' : Space} {xs : List Sample} {off : Nat}
    (h : ¬(sp' = sp ∧ off < 2 * xs.length)) : (s.storeElems sp 0 xs).load sp' off = s.load sp' off := by
  rw [State.load, State.storeElems_mem]
  split
  · next hsp =>
    subst hsp
    have beyond : ¬off < 2 * xs.length := fun hlt => h ⟨rfl, hlt⟩
    exact Mem.load_store_outside _ _ _ _ (.inr (by rw [wordsOf_length]; omega))
  · rfl

/-- `GEN` stores `N` elements in each of `UP` and `DOWN` and no other word. -/
theorem load_generate_frame {s : State} {sp : Space} {off : Nat} (h : ¬((sp = .up ∨ sp = .down) ∧ off < 2 * s.n)) :
    s.generate.load sp off = s.load sp off := by
  have hn : 2 ^ s.cfg.sf.toNat * 1 = s.n := Nat.mul_one _
  have down : ¬(sp = .down ∧ off < 2 * (s.nums.gen s.cfg.sf.toNat 1).2.length) := by
    rw [Num.gen_snd_length, hn]; tauto
  have up : ¬(sp = .up ∧ off < 2 * (s.nums.gen s.cfg.sf.toNat 1).1.length) := by
    rw [Num.gen_fst_length, hn]; tauto
  exact (load_storeElems_frame down).trans (load_storeElems_frame up)

/-- A step that produces nothing leaves `OUT_COUNT` as it is. -/
theorem countUp_outCount {s : State} (h : s.report.produced = 0) : s.countUp.count.outCount = s.count.outCount := by
  rw [State.countUp_count, h]
  exact BitVec.add_zero _

theorem countUp_of_produced_zero {s : State} (h : s.report.produced = 0) :
    s.countUp = { s with count := { s.count with inCount := s.count.inCount + s.report.consumed.setWidth 64 } } := by
  have same : s.count.outCount + s.report.produced.setWidth 64 = s.count.outCount := countUp_outCount h
  rw [State.countUp, same]

theorem fsmStep_quarterDown {s : State} (hstate : s.acq.state = .sync) (hpos : s.acq.syncPos = .quarterDown)
    (hdone : s.acq.estDone = true) : fsmStep s = .ok (s.clearReport.endSync s.n s.cfg.hdrSyms).countUp := by
  have hcase : stepCase s.clearReport = stepSync .quarterDown s.clearReport :=
    hpos ▸ stepCase_sync (s := s.clearReport) hstate
  have run := (stepQuarterDown_ok s.clearReport _).2 ⟨_, estimate_done (s := s.clearReport) hdone, rfl⟩
  exact (fsmStep_ok s _).2 ⟨_, hcase.trans run, rfl⟩

theorem endSync_failed {s : State} (h : s.acq.downVal = nosymWord) (n : Nat) (hdrSyms : BitVec 16) :
    s.endSync n hdrSyms = (s.consume n).resync .noDown := if_pos h

theorem endSync_passed {s : State} (h : s.acq.downVal ≠ nosymWord) (n : Nat) (hdrSyms : BitVec 16) :
    s.endSync n hdrSyms =
      ((s.tagFrame (integerCfo s.acq.downVal.toInt n)).generate.consume
        ((n / 4 : Nat) + integerCfo s.acq.downVal.toInt n)).startFrame hdrSyms := if_neg h

/-- What entering the frame with the integer offset `c` writes (rule R199). -/
theorem enterFrame_eq (s : State) (c v : Int) (hdrSyms : BitVec 16) :
    ((s.tagFrame c).generate.consume v).startFrame hdrSyms =
      { s with
        mems := s.generate.mems
        acq := { s.acq with cfoInt := intWord c, state := .fracCfoCorrec, symCnt := 0, symbNumb := hdrSyms.setWidth 32 }
        report := { s.report with
          consumed := intWord (s.os * v), tagValid := true, tagOffset := s.count.outCount, tagCfoint := intWord c } } := rfl

/-- Settles O41: past its prologue the step ends `SYNC`, and produces nothing. -/
theorem quarterDownStepEntersTheFrame : Obligations.QuarterDownStepEntersTheFrame := by
  intro s ht hstate hpos hdone used r
  have run := fsmStep_quarterDown hstate hpos hdone
  refine ⟨fun hv => ?_, fun hv => ?_⟩
  · rw [endSync_failed (s := s.clearReport) hv, countUp_of_produced_zero rfl] at run
    exact exec_unit_ok (i := .fsmstep) rfl ht run
  · rw [endSync_passed (s := s.clearReport) hv, enterFrame_eq, countUp_of_produced_zero rfl] at run
    intro v c
    have next := exec_unit_ok (i := .fsmstep) rfl ht run
    obtain ⟨up, down⟩ := holds_generate s
    exact ⟨_, next, rfl, up, down, fun sp off h => load_generate_frame h⟩

/-! ### Tags (O53) -/

section

variable {s t : State}

/-- The prologue reports nothing and leaves the down-chirp result alone. -/
theorem estimate_frame (h : estimate s = .ok t) : t.report = s.report ∧ t.acq.downVal = s.acq.downVal := by
  obtain ⟨-, rfl⟩ | ⟨-, u, v, hu, hv, rfl⟩ := (estimate_ok s t).1 h
  · exact ⟨rfl, rfl⟩
  · obtain ⟨r, rfl⟩ := runCfoest_eq hu
    obtain ⟨q, rfl⟩ := runStoest_eq hv
    simp

theorem estimateAndCorrelate_tagValid {ref : RefSel} {bs : Option Nat × State} (h : estimateAndCorrelate ref s = .ok bs) :
    bs.2.report.tagValid = s.report.tagValid := by
  obtain ⟨u, z, hu, -, hc⟩ := (estimateAndCorrelate_ok ref s bs).1 h
  obtain ⟨report, -⟩ := estimate_frame hu
  obtain ⟨-, rfl⟩ := (correlate_ok _ _ _ _).1 hc
  exact congrArg Report.tagValid report

theorem stepDetect_tagValid (h : stepDetect s = .ok t) : t.report.tagValid = s.report.tagValid := by
  obtain ⟨be, -, -, -, rfl⟩ := stepDetect_spec h
  have tracked : ((s.setCorrelator be).track be.1 (s.vec .sym s.n)).report.tagValid = s.report.tagValid := by
    unfold State.track
    split <;> rfl
  unfold State.endDetect
  split <;> exact tracked

theorem stepNetId1_tagValid (h : stepNetId1 s = .ok t) : t.report.tagValid = s.report.tagValid := by
  obtain ⟨b, u, hu, rfl⟩ := (stepNetId1_ok s t).1 h
  have same := estimateAndCorrelate_tagValid hu
  dsimp only
  split
  · exact same
  · split <;> exact same

theorem stepNetId2_tagValid (h : stepNetId2 s = .ok t) : t.report.tagValid = s.report.tagValid := by
  obtain ⟨b, u, hu, rfl⟩ := (stepNetId2_ok s t).1 h
  have same := estimateAndCorrelate_tagValid hu
  split <;> exact same

theorem stepDownchirp1_tagValid (h : stepDownchirp1 s = .ok t) : t.report.tagValid = s.report.tagValid := by
  obtain ⟨u, hu, rfl⟩ := (stepDownchirp1_ok s t).1 h
  obtain ⟨report, -⟩ := estimate_frame hu
  have same := congrArg Report.tagValid report
  exact same

theorem stepDownchirp2_tagValid (h : stepDownchirp2 s = .ok t) : t.report.tagValid = s.report.tagValid := by
  obtain ⟨b, u, hu, rfl⟩ := (stepDownchirp2_ok s t).1 h
  exact estimateAndCorrelate_tagValid hu

theorem stepFrac_tagValid (h : stepFrac s = .ok t) (clear : s.report.tagValid = false) : t.report.tagValid = false := by
  unfold stepFrac at h
  split at h
  · obtain ⟨z, -, rfl⟩ := (stepEmit_ok s t).1 h
    exact clear
  · exact Except.ok.inj h ▸ rfl

/-- The one step that emits a tag (rule R199). -/
theorem stepCase_tagged (h : stepCase s = .ok t) (clear : s.report.tagValid = false) (tag : t.report.tagValid = true) :
    s.acq.state = .sync ∧ s.acq.syncPos = .quarterDown ∧ stepQuarterDown s = .ok t := by
  have silent {P : Prop} (same : t.report.tagValid = s.report.tagValid) : P := by
    rw [tag, clear] at same
    cases same
  exact stepCase_cases h (fun _ h => silent (stepDetect_tagValid h)) (fun _ _ h => silent (stepNetId1_tagValid h))
    (fun _ _ h => silent (stepNetId2_tagValid h)) (fun _ _ h => silent (stepDownchirp1_tagValid h))
    (fun _ _ h => silent (stepDownchirp2_tagValid h)) (fun hstate hpos h => ⟨hstate, hpos, h⟩)
    (fun _ h => silent ((stepFrac_tagValid h clear).trans clear.symm))

/-- What a tag stands for: from `s` the block has entered the frame in `t`, and produced nothing (rules R98, R229). -/
structure EntersFrame (s t : State) : Prop where
  state : s.acq.state = .sync
  position : s.acq.syncPos = .quarterDown
  downVal : s.acq.downVal ≠ nosymWord
  frame : t.acq.state = .fracCfoCorrec
  produced : t.report.produced = 0
  offset : t.report.tagOffset = t.count.outCount
  value : t.report.tagCfoint = t.acq.cfoInt

theorem fsmStep_tagged (h : fsmStep s = .ok t) (tag : t.report.tagValid = true) : EntersFrame s t := by
  obtain ⟨u, hu, rfl⟩ := (fsmStep_ok s t).1 h
  obtain ⟨hstate, hpos, hu⟩ := stepCase_tagged hu rfl tag
  obtain ⟨v, hv, rfl⟩ := (stepQuarterDown_ok _ _).1 hu
  obtain ⟨report, downVal⟩ := estimate_frame hv
  have hdown : v.acq.downVal ≠ nosymWord := by
    intro absent
    rw [endSync_failed absent] at tag
    have same : v.report.tagValid = false := congrArg Report.tagValid report
    exact absurd (same.symm.trans tag) nofun
  have produced : v.report.produced = 0 := congrArg Report.produced report
  rw [endSync_passed hdown, enterFrame_eq]
  exact ⟨hstate, hpos, fun absent => hdown (downVal.trans absent), rfl, produced,
    (countUp_outCount (by exact produced)).symm, rfl⟩

/-- The events drained touch the acquisition in a frame only, and do not lead to `SYNC` (rule R225). -/
theorem applyEvent_acq (ev : Event) (h : (s.applyEvent ev).acq.state = .sync) : (s.applyEvent ev).acq = s.acq := by
  unfold State.applyEvent at h ⊢
  split at h
  · next hframe =>
    split at h
    · cases h
    · rw [hframe] at h; cases h
  · next hframe => rw [if_neg hframe]

theorem drainEvents_acq (h : s.drainEvents.acq.state = .sync) : s.drainEvents.acq = s.acq := by
  have fold (evs : List Event) (t : State) (h : (evs.foldl State.applyEvent t).acq.state = .sync) :
      (evs.foldl State.applyEvent t).acq = t.acq := by
    induction evs generalizing t with
    | nil => rfl
    | cons ev evs ih =>
      have rest := ih _ h
      exact rest.trans (applyEvent_acq ev ((congrArg Acq.state rest).symm.trans h))
  exact fold s.evq { s with evq := [] } h

theorem invoke_tagged (h : invoke s = .ok t) (tag : t.report.tagValid = true) : EntersFrame s t := by
  obtain ⟨-, rfl⟩ | ⟨-, u, hu, ht⟩ := (invoke_ok s t).1 h
  · cases tag
  · have entered := fsmStep_tagged ht tag
    obtain ⟨-, rfl⟩ := (runDowns_ok _ _).1 hu
    have same : s.drainEvents.acq = s.acq := drainEvents_acq entered.state
    exact { entered with
      state := same ▸ entered.state, position := same ▸ entered.position, downVal := same ▸ entered.downVal }

end

/-- Settles O53: `WORK` clears the tag before its step, and of the steps only the one that enters the frame sets it again. -/
theorem tagsAppearOnlyAtFrameEntry : Obligations.TagsAppearOnlyAtFrameEntry := by
  intro s t hs h tag
  obtain ⟨-, u, hu, rfl⟩ | ⟨hs', -⟩ := (hostCommand_next invoke s t).1 h
  · obtain ⟨state, position, downVal, frame, produced, offset, value⟩ := invoke_tagged hu tag
    exact ⟨state, position, downVal, frame, produced, offset, value⟩
  · rw [hs] at hs'; cases hs'

end Sys2Proof.Machine
end

section
/-! The reference chirps of `gen` (rules R120 to R126): what `GEN` stores (rule R123), that `GEN` and `CFOEST` are idempotent
(rules R124, R164), and the properties of the pair over the exact complex numbers (rule R126). -/

namespace Sys2Proof.Machine

/-! ### The samples of the chirp pair -/

/-- Sample `i` of the up-chirp, by the formula of rule R121. -/
def Num.upSample {R : Type} (num : Num R) (sf os i : Nat) : Cx R :=
  num.cis (num.ofFrac ((i : Int) * i - (i : Int) * (2 ^ sf * os : Nat)) (2 * 2 ^ sf * os * os))

theorem Num.gen_fst_getElem? {R : Type} (num : Num R) {sf os i : Nat} (hi : i < 2 ^ sf * os) :
    (num.gen sf os).1[i]? = some (num.upSample sf os i) := by
  have up : (num.gen sf os).1 = (List.range (2 ^ sf * os)).map (num.upSample sf os) := rfl
  rw [up, List.getElem?_map, List.getElem?_range hi]
  rfl

theorem Num.gen_snd_getElem? {R : Type} (num : Num R) (sf os i : Nat) :
    (num.gen sf os).2[i]? = (num.gen sf os).1[i]?.map num.conj :=
  List.getElem?_map

/-- In both word instances conjugation flips the top bit of the imaginary word (rule R122). -/
theorem State.conj_eq (s : State) (z : Sample) : s.nums.conj z = (z.1, z.2 ^^^ (0x80000000 : Word)) := by
  unfold State.nums
  split <;> rfl

/-! ### `GEN` writes the chirp pair (O24) -/

/-- With `GEN_OS = 1` the angle of rule R121 is `(i*i - i*N) / (2*N)`. -/
theorem State.upSample_eq (s : State) (i : Nat) :
    s.nums.upSample s.cfg.sf.toNat 1 i =
      s.nums.cis (s.nums.ofFrac ((i : Int) * i - (i : Int) * s.n) (2 * s.n)) := by
  simp only [Num.upSample, Nat.mul_one, State.n]

theorem Holds.elem {s : State} {sp : Space} {xs : List Sample} (h : Holds s sp 0 xs) {j : Nat} {x : Sample}
    (hx : xs[j]? = some x) : (s.mem sp).elem j = some x := by
  simpa using h j x hx

theorem elem_generate (s : State) {i : Nat} (hi : i < s.n) :
    (s.generate.mem .up).elem i = some (s.nums.upSample s.cfg.sf.toNat 1 i) ∧
      (s.generate.mem .down).elem i = some (s.nums.conj (s.nums.upSample s.cfg.sf.toNat 1 i)) := by
  obtain ⟨up, down⟩ := holds_generate s
  have upAt := s.nums.gen_fst_getElem? (sf := s.cfg.sf.toNat) (os := 1) (hi.trans_eq (Nat.mul_one _).symm)
  have downAt := s.nums.gen_snd_getElem? s.cfg.sf.toNat 1 i
  rw [upAt] at downAt
  exact ⟨up.elem upAt, down.elem downAt⟩

/-- Settles O24: `GEN` stores the pair `gen` computes, and no other word (`load_generate_frame`). -/
theorem genWritesTheChirpPair : Obligations.GenWritesTheChirpPair := by
  intro s ht up
  refine ⟨_, exec_unit_ok (i := .gen) rfl ht rfl, rfl, fun i hi => ?_, fun sp off h => load_generate_frame h⟩
  obtain ⟨upAt, downAt⟩ := elem_generate s hi
  rw [State.conj_eq] at downAt
  rw [State.upSample_eq] at upAt downAt
  exact ⟨upAt, downAt⟩

/-! ### Storing again what was just stored -/

theorem filter_block_before (ws : List Word) (off : Nat) :
    ((ws.zipIdx off).map fun wi => (wi.2, wi.1)).filter (fun c => c.1 < off) = [] := by
  simp only [List.filter_eq_nil_iff, List.forall_mem_map, decide_eq_true_eq]
  exact fun wi hwi => Nat.not_lt.2 (List.mem_zipIdx hwi).1

theorem filter_block_after (ws : List Word) (off : Nat) :
    ((ws.zipIdx off).map fun wi => (wi.2, wi.1)).filter (fun c => off + ws.length ≤ c.1) = [] := by
  simp only [List.filter_eq_nil_iff, List.forall_mem_map, decide_eq_true_eq]
  exact fun wi hwi => Nat.not_le.2 (List.mem_zipIdx hwi).2.1

/-- Whatever the memory, even one that is not in canonical form. -/
theorem Mem.store_store (m : Mem) (off : Nat) (ws : List Word) : (m.store off ws).store off ws = m.store off ws := by
  have before : (m.store off ws).filter (fun c => c.1 < off) = m.filter (fun c => c.1 < off) := by
    have high : (m.filter fun c => off + ws.length ≤ c.1).filter (fun c => c.1 < off) = [] := by
      simp only [List.filter_eq_nil_iff, List.mem_filter, decide_eq_true_eq]
      omega
    rw [Mem.store, List.filter_append, List.filter_append, filter_block_before, high, List.filter_filter]
    simp
  have after : (m.store off ws).filter (fun c => off + ws.length ≤ c.1) = m.filter (fun c => off + ws.length ≤ c.1) := by
    have low : (m.filter fun c => c.1 < off).filter (fun c => off + ws.length ≤ c.1) = [] := by
      simp only [List.filter_eq_nil_iff, List.mem_filter, decide_eq_true_eq]
      omega
    rw [Mem.store, List.filter_append, List.filter_append, filter_block_after, low, List.filter_filter]
    simp
  rw [Mem.store, before, after, ← Mem.store]

theorem State.setMem_self (s : State) (sp : Space) : s.setMem sp (s.mem sp) = s := by cases sp <;> rfl

/-- A store changes nothing in a memory that the same store has left. -/
theorem storeElems_eq_self_of_stored {s : State} {sp : Space} {i : Nat} {xs : List Sample} {m : Mem}
    (h : s.mem sp = m.store (2 * i) (wordsOf xs)) : s.storeElems sp i xs = s := by
  rw [State.storeElems, h, Mem.store_store, ← h, State.setMem_self]

theorem storeElems_pair_eq_self {s : State} {sp sp' : Space} {i i' : Nat} {xs xs' : List Sample}
    (h : s.storeElems sp i xs = s) (h' : s.storeElems sp' i' xs' = s) :
    (s.storeElems sp i xs).storeElems sp' i' xs' = s := by
  rw [h, h']

/-! ### `GEN` and `CFOEST` are idempotent (O35) -/

theorem generate_again (s : State) (c : ErrCode) : (s.generate.setErr c).generate = s.generate.setErr c := by
  have up : (s.generate.setErr c).mem .up =
      (s.mem .up).store (2 * 0) (wordsOf (s.nums.gen s.cfg.sf.toNat Config.genOs).1) := rfl
  have down : (s.generate.setErr c).mem .down =
      (s.mem .down).store (2 * 0) (wordsOf (s.nums.gen s.cfg.sf.toNat Config.genOs).2) := rfl
  exact storeElems_pair_eq_self (storeElems_eq_self_of_stored up) (storeElems_eq_self_of_stored down)

theorem setCfo_again (s : State) (r : CfoResult Word) (c : ErrCode) :
    ((s.setCfo r).setErr c).setCfo r = (s.setCfo r).setErr c := by
  have prec : ((s.setCfo r).setErr c).mem .prec = (s.mem .prec).store (2 * 0) (wordsOf r.prec) := rfl
  have corr : ((s.setCfo r).setErr c).mem .corr = (s.mem .corr).store (2 * 0) (wordsOf r.corr) := rfl
  have stored := storeElems_pair_eq_self (storeElems_eq_self_of_stored prec) (storeElems_eq_self_of_stored corr)
  exact congrArg (fun u : State => { u with acq := { u.acq with lambdaCfo := r.lambda } }) stored

/-- `CFOEST` changes none of its operands: the preamble, the down-chirp, the configuration. -/
theorem runCfoest_again {s u : State} (h : runCfoest s = .ok u) (c : ErrCode) :
    runCfoest (u.setErr c) = .ok (u.setErr c) := by
  obtain ⟨pre, down, rfl⟩ := (runCfoest_ok s u).1 h
  exact (runCfoest_ok _ _).2 ⟨pre, down, (setCfo_again s _ c).symm⟩

/-- Settles O35: a body that completes leaves a state it leaves as it is. -/
theorem genAndCfoestAreIdempotent : Obligations.GenAndCfoestAreIdempotent := by
  intro s t ht
  constructor
  · intro h
    obtain ⟨u, hu, rfl⟩ := runUnit_of_next (i := .gen) rfl ht h
    obtain rfl := Except.ok.inj hu
    exact exec_unit_ok (i := .gen) (u := s.generate.setErr .none) rfl ht (congrArg Except.ok (generate_again s .none))
  · intro h
    obtain ⟨u, hu, rfl⟩ := runUnit_of_next (i := .cfoest) rfl ht h
    obtain ⟨started, test, -⟩ := body_sameMode (.inr ⟨.cfoest, hu⟩)
    have testing : Testing (u.setErr .none) := ⟨started.trans ht.1, test.trans ht.2⟩
    exact exec_unit_ok (i := .cfoest) (u := u.setErr .none) rfl testing (runCfoest_again hu .none)

/-! ### The pair over the exact complex numbers (O57) -/

/-- One turn is a whole period of `cis` (rule R13). -/
theorem exactCis_add_int (q : ℝ) (m : ℤ) : exactCis (q + m) = exactCis q := by
  have turns : 2 * Real.pi * (q + m) = 2 * Real.pi * q + m * (2 * Real.pi) := by ring
  rw [exactCis, turns, Real.cos_add_int_mul_two_pi, Real.sin_add_int_mul_two_pi, ← exactCis]

theorem exactCis_int (m : ℤ) : exactCis m = (1, 0) := by
  have start : exactCis 0 = (1, 0) := by simp [exactCis]
  rw [← zero_add (m : ℝ), exactCis_add_int, start]

/-- The sample `gen` computes in exact arithmetic is that of the phase polynomial (rule R126 (d)). -/
theorem exact_upSample (sf os n : ℕ) : Num.exact.upSample sf os n = exactCis (exactTheta sf os n) := by
  have theta : Num.exact.ofFrac ((n : ℤ) * n - (n : ℤ) * (2 ^ sf * os : ℕ)) (2 * 2 ^ sf * os * os) =
      exactTheta sf os n := by
    change ((((n : ℤ) * n - (n : ℤ) * (2 ^ sf * os : ℕ) : ℤ) : ℝ) / ((2 * 2 ^ sf * os * os : ℕ) : ℝ)) = _
    rw [exactTheta]
    push_cast
    ring
  exact congrArg exactCis theta

theorem exact_conj (z : Cx ℝ) : Num.exact.conj z = (z.1, -z.2) := rfl

theorem exactTheta_zero (sf os : ℕ) : exactTheta sf os 0 = ((0 : ℤ) : ℝ) := by simp [exactTheta]

/-- Over `N` samples the phase polynomial grows by a whole number of turns (rule R126 (e)). -/
theorem exactTheta_add_period (sf : ℕ) (n : ℤ) : exactTheta sf 1 (n + 2 ^ sf) = exactTheta sf 1 n + n := by
  have hn : (2 : ℝ) ^ sf ≠ 0 := by positivity
  rw [exactTheta, exactTheta]
  push_cast
  field_simp
  ring

/-- In the middle of the symbol the phase is `-N/8` turns, a whole number as `N` is a multiple of 8 (rule R126 (e)). -/
theorem exactTheta_middle (k : ℕ) : exactTheta (k + 3) 1 (2 ^ (k + 3) / 2 : ℕ) = ((-2 ^ k : ℤ) : ℝ) := by
  have half : 2 ^ (k + 3) / 2 = 4 * 2 ^ k := by rw [pow_add]; omega
  have hk : (2 : ℝ) ^ k ≠ 0 := by positivity
  rw [half, exactTheta, pow_add]
  push_cast
  field_simp
  ring

/-- Settles O57, clause by clause of rule R126. -/
theorem chirpPairHasTheStatedProperties : Obligations.ChirpPairHasTheStatedProperties := by
  intro sf os hsf _ hos ud
  have sample (n : ℕ) (hn : n < 2 ^ sf * os) : ud.1[n]? = some (exactCis (exactTheta sf os n)) :=
    exact_upSample sf os n ▸ Num.exact.gen_fst_getElem? hn
  have up_length : ud.1.length = 2 ^ sf * os := Num.gen_fst_length _ _ _
  refine ⟨up_length, Num.gen_snd_length _ _ _, fun n z hz => ?_, ?_, ?_⟩
  · have hn : n < 2 ^ sf * os := up_length ▸ (List.getElem?_eq_some_iff.1 hz).1
    have conj : ud.2[n]? = ud.1[n]?.map Num.exact.conj := Num.exact.gen_snd_getElem? sf os n
    rw [hz] at conj
    exact ⟨Option.some.inj (hz.symm.trans (sample n hn)), conj⟩
  · rw [sample 0 (by positivity), Nat.cast_zero, exactTheta_zero, exactCis_int]
  · rintro rfl
    obtain ⟨k, rfl⟩ := Nat.exists_eq_add_of_le' (show 3 ≤ sf by omega)
    refine ⟨fun n => by rw [exactTheta_add_period, exactCis_add_int], ?_⟩
    have middle : 2 ^ (k + 3) / 2 < 2 ^ (k + 3) * 1 := by
      rw [Nat.mul_one]
      exact Nat.div_lt_self (Nat.two_pow_pos _) (by decide)
    rw [sample _ middle, exactTheta_middle, exactCis_int]

end Sys2Proof.Machine
end

section
/-! The symbol correlator (`41_css_symbol_correlator.md`): the peak pick (rule R132), the command `DEMOD` (rule R136), and over
the exact complex numbers the energy (rule R133) and the noiseless symbol (rule R137). The exact transform is Mathlib's
`ZMod.dft` of the samples indexed by residues, so Parseval's identity and the orthogonality of the tones come from there. -/

namespace Sys2Proof.Machine

open scoped ComplexConjugate ZMod

/-! ### The peak pick (O55) -/

/-- Settles O55: the search of `argmax` stops at the first entry that is `>=` every value. -/
theorem peakIsTheLeastIndexOfTheMaximum : Obligations.PeakIsTheLeastIndexOfTheMaximum := by
  intro R num mags k y hk top before
  obtain ⟨hlt, hy⟩ := List.getElem?_eq_some_iff.1 hk
  have found : mags.zipIdx.find? (fun yk => mags.all (fun x => num.ge yk.1 x)) = some (y, k) := by
    refine List.find?_eq_some_iff_getElem.2 ⟨List.all_eq_true.2 top, k, by simpa using hlt, by simp [hy], fun j hj => ?_⟩
    obtain ⟨x, hx, less⟩ := before j mags[j] hj (List.getElem?_eq_getElem _)
    simpa using ⟨x, hx, less⟩
  rw [Num.argmax, found]

/-! ### `DEMOD` (O25) -/

theorem runUnit_demod_written {s : State} {ref : RefSel} {src : SrcSel} {x : List Sample} (hx : readSource src s = .ok x)
    (href : Written s (refSpace ref) s.n) :
    runUnit (.demod ref src) s = .ok (s.setCorrelator (s.nums.demod x (s.vec (refSpace ref) s.n))) :=
  (bind_ok _ _ _).2 ⟨x, hx, (bind_ok _ _ _).2 ⟨_, (correlate_ok x ref s _).2 ⟨href, rfl⟩, rfl⟩⟩

/-- A correlator result as its register words, silence shown as -1 (rules R97, R134). -/
theorem State.setCorrelator_demod (s : State) (x r : List Sample) :
    let mags := s.nums.spectrum (s.nums.hadamard x r)
    let silent := s.nums.isZero (s.nums.energy mags)
    s.setCorrelator (s.nums.demod x r) = { s with unit := { s.unit with
      rBin := if silent then 0xFFFFFFFF else BitVec.ofNat 32 (s.nums.argmax mags)
      rEnergy := if silent then s.nums.zero else s.nums.energy mags } } := by
  intro mags silent
  have result : s.nums.demod x r = if silent then (none, s.nums.zero) else (some (s.nums.argmax mags), s.nums.energy mags) :=
    rfl
  rw [result]
  cases silent <;> rfl

/-- Settles O25: with its operands written the body of `DEMOD` leaves the correlator's result. -/
theorem demodLeavesThePeakBinAndTheEnergy : Obligations.DemodLeavesThePeakBinAndTheEnergy := by
  intro s ref src ht hsym hcorr href x z mags silent
  have source : readSource src s = .ok x := by
    cases src with
    | sym => exact readVector_written hsym
    | symCorr => exact readCorrected_written hsym (hcorr rfl)
  have reference : Written s (refSpace ref) s.n := by cases ref <;> exact href
  rw [exec_unit_ok rfl ht (runUnit_demod_written source reference), State.setCorrelator_demod]
  cases ref <;> rfl

/-! ### Exact samples as complex numbers -/

/-- A sample as Mathlib's complex number. -/
def toComplex (z : Cx ℝ) : ℂ := ⟨z.1, z.2⟩

theorem toComplex_cadd (z w : Cx ℝ) : toComplex (realArith.caddFormula z w) = toComplex z + toComplex w := rfl

theorem toComplex_cmul (z w : Cx ℝ) : toComplex (realArith.cmulFormula z w) = toComplex z * toComplex w := rfl

theorem toComplex_czero : toComplex realArith.czero = 0 := by
  simp [toComplex, Arith.czero, Arith.zero, realArith, Complex.ext_iff]

theorem normSq_toComplex (z : Cx ℝ) : Complex.normSq (toComplex z) = z.1 * z.1 + z.2 * z.2 := rfl

theorem toComplex_eq_zero {z : Cx ℝ} : toComplex z = 0 ↔ z = (0, 0) := by
  simp [toComplex, Complex.ext_iff, Prod.ext_iff]

theorem toComplex_exactCis (q : ℝ) : toComplex (exactCis q) = Complex.exp (2 * Real.pi * q * Complex.I) := by
  have angle : (2 * Real.pi * q : ℂ) = ((2 * Real.pi * q : ℝ) : ℂ) := by push_cast; rfl
  rw [angle]
  exact Complex.ext (Complex.exp_ofReal_mul_I_re _).symm (Complex.exp_ofReal_mul_I_im _).symm

theorem toComplex_exactCis_add (p q : ℝ) :
    toComplex (exactCis (p + q)) = toComplex (exactCis p) * toComplex (exactCis q) := by
  simp only [toComplex_exactCis, ← Complex.exp_add]
  push_cast
  ring_nf

theorem normSq_exactCis (q : ℝ) : Complex.normSq (toComplex (exactCis q)) = 1 :=
  (normSq_toComplex _).trans (by simpa [exactCis, sq] using Real.cos_sq_add_sin_sq (2 * Real.pi * q))

/-! ### The exact transform -/

/-- The samples of a vector of length `L`, indexed by the residues modulo `L`. -/
noncomputable def signal (L : ℕ) (x : List (Cx ℝ)) (n : ZMod L) : ℂ := toComplex (x.getD n.val realArith.czero)

theorem signal_natCast {x : List (Cx ℝ)} {L n : ℕ} (hx : x.length = L) (hn : n < x.length) :
    signal L x n = toComplex x[n] := by
  rw [signal, ZMod.val_natCast_of_lt (hx ▸ hn), List.getD_eq_getElem _ _ hn]

theorem exact_energy (mags : List ℝ) : Num.exact.energy mags = mags.sum / mags.length := by
  have sum : mags.foldl realArith.add realArith.zero = mags.sum := by
    rw [List.sum_eq_foldl]
    simp [realArith, Arith.zero]
  have count : realArith.ofNat mags.length = mags.length := by simp [realArith, Arith.ofNat]
  exact congrArg₂ (· / ·) sum count

section

variable {L : ℕ} [NeZero L]

/-- A whole number of `L`-ths of a turn is a value of the standard character of the residues modulo `L`. -/
theorem toComplex_exactCis_div (p : ℤ) : toComplex (exactCis ((p : ℝ) / L)) = ZMod.stdAddChar (p : ZMod L) := by
  rw [toComplex_exactCis, ZMod.stdAddChar_coe]
  push_cast
  ring_nf

open scoped Fin.CommRing in
/-- The sum of a list of length `L` as a sum over the residues modulo `L`. -/
theorem sum_eq_sum_zmod {M : Type} [AddCommMonoid M] {l : List M} {g : ZMod L → M} (hl : l.length = L)
    (hg : ∀ (n : ℕ) (hn : n < l.length), l[n] = g n) : l.sum = ∑ n, g n := by
  have values : l = List.ofFn fun n : Fin L => g (n : ℕ) :=
    List.ext_getElem (by simp [hl]) fun n hn _ => by rw [hg n hn, List.getElem_ofFn]
  rw [values, List.sum_ofFn]
  refine Fintype.sum_equiv (ZMod.finEquiv L).toEquiv _ _ fun n => congrArg g ?_
  rw [← map_natCast (ZMod.finEquiv L), Fin.cast_val_eq_self]
  rfl

theorem toComplex_foldl_cadd {α : Type} (g : α → Cx ℝ) (l : List α) (z : Cx ℝ) :
    toComplex (l.foldl (fun acc a => realArith.caddFormula acc (g a)) z) = toComplex z + (l.map fun a => toComplex (g a)).sum := by
  induction l generalizing z with
  | nil => simp
  | cons a l ih => rw [List.foldl_cons, ih, toComplex_cadd, List.map_cons, List.sum_cons, add_assoc]

theorem toComplex_twiddles_getD {j : ℕ} (hj : j < L) :
    toComplex ((realArith.twiddles L).getD j realArith.czero) = ZMod.stdAddChar (-(j : ZMod L)) := by
  have entry : (realArith.twiddles L).getD j realArith.czero = exactCis (((-j : ℤ) : ℝ) / L) := by
    rw [Arith.twiddles]
    simp only [Array.getD_eq_getD_getElem?, List.getElem?_toArray, List.getElem?_map, List.getElem?_range hj]
    rfl
  rw [entry, toComplex_exactCis_div, Int.cast_neg, Int.cast_natCast]

/-- Line `k` of the transform (rule R131). -/
theorem toComplex_dft_getElem {x : List (Cx ℝ)} (hx : x.length = L) {k : ℕ} (hk : k < (realArith.dftFormula x).length) :
    toComplex (realArith.dftFormula x)[k] = 𝓕 (signal L x) k := by
  subst hx
  simp only [Arith.dftFormula, List.getElem_map, List.getElem_range, toComplex_foldl_cadd, toComplex_czero, zero_add]
  rw [ZMod.dft_apply]
  refine sum_eq_sum_zmod (by simp) fun n hn => ?_
  have hn' : n < x.length := by simpa using hn
  rw [List.getElem_map, toComplex_cmul, toComplex_twiddles_getD (Nat.mod_lt _ (NeZero.pos _)), ZMod.natCast_mod,
    signal_natCast rfl hn', List.getElem_zipIdx, zero_add, Nat.cast_mul, smul_eq_mul, mul_comm, mul_comm (n : ZMod x.length)]

theorem exact_spectrum {x : List (Cx ℝ)} (hx : x.length = L) :
    Num.exact.spectrum x = (List.range L).map fun k : ℕ => Complex.normSq (𝓕 (signal L x) k) := by
  change (realArith.dftFormula x).map Num.exact.sqmag = _
  refine List.ext_getElem (by simp [hx]) fun k hk _ => ?_
  rw [List.getElem_map, List.getElem_map, List.getElem_range, ← toComplex_dft_getElem hx (by simpa using hk)]
  rfl

/-! ### Parseval's identity (O59) -/

/-- Transforming twice gives `L` times the signal back (`ZMod.dft_dft`), read as an identity of inner products. -/
theorem parseval_dft (Φ : ZMod L → ℂ) : ∑ k, Complex.normSq (𝓕 Φ k) = L * ∑ n, Complex.normSq (Φ n) := by
  have line (k : ZMod L) : conj (𝓕 Φ k) = ∑ n, ZMod.stdAddChar (n * k) * conj (Φ n) := by
    rw [ZMod.dft_apply, map_sum]
    refine Finset.sum_congr rfl fun n _ => ?_
    rw [smul_eq_mul, map_mul, ← AddChar.map_neg_eq_conj, neg_neg]
  have twice (n : ZMod L) : ∑ k, ZMod.stdAddChar (n * k) * 𝓕 Φ k = L * Φ n := by
    have h := congrFun (ZMod.dft_dft Φ) (-n)
    rw [ZMod.dft_apply] at h
    simpa [mul_comm] using h
  have inner : ∑ k, 𝓕 Φ k * conj (𝓕 Φ k) = L * ∑ n, Φ n * conj (Φ n) := by
    calc ∑ k, 𝓕 Φ k * conj (𝓕 Φ k) = ∑ k, ∑ n, conj (Φ n) * (ZMod.stdAddChar (n * k) * 𝓕 Φ k) := by
          refine Finset.sum_congr rfl fun k _ => ?_
          rw [line, Finset.mul_sum]
          exact Finset.sum_congr rfl fun n _ => by ring
      _ = ∑ n, conj (Φ n) * (L * Φ n) := by
          rw [Finset.sum_comm]
          exact Finset.sum_congr rfl fun n _ => by rw [← Finset.mul_sum, twice]
      _ = L * ∑ n, Φ n * conj (Φ n) := by
          rw [Finset.mul_sum]
          exact Finset.sum_congr rfl fun n _ => by ring
  simp only [Complex.mul_conj] at inner
  exact_mod_cast inner

theorem exact_energy_spectrum {x : List (Cx ℝ)} (hx : x.length = L) :
    Num.exact.energy (Num.exact.spectrum x) = ∑ n, Complex.normSq (signal L x n) := by
  have hL : (L : ℝ) ≠ 0 := Nat.cast_ne_zero.2 (NeZero.ne L)
  have sum : (Num.exact.spectrum x).sum = ∑ k, Complex.normSq (𝓕 (signal L x) k) := by
    rw [exact_spectrum hx]
    exact sum_eq_sum_zmod (by simp) (by simp)
  have length : (Num.exact.spectrum x).length = L := by simp [exact_spectrum hx]
  rw [exact_energy, sum, length, parseval_dft, mul_div_cancel_left₀ _ hL]

end

theorem sum_normSq_eq_zero_iff (x : List (Cx ℝ)) :
    (x.map fun z => Complex.normSq (toComplex z)).sum = 0 ↔ ∀ z ∈ x, z = (0, 0) := by
  induction x with
  | nil => simp
  | cons z x ih =>
    have nonneg : 0 ≤ (x.map fun z => Complex.normSq (toComplex z)).sum :=
      List.sum_nonneg (List.forall_mem_map.2 fun w _ => Complex.normSq_nonneg _)
    rw [List.map_cons, List.sum_cons, add_eq_zero_iff_of_nonneg (Complex.normSq_nonneg _) nonneg, ih, Complex.normSq_eq_zero,
      toComplex_eq_zero, List.forall_mem_cons]

/-- Settles O59: Parseval's identity, and a sum of squared magnitudes vanishes only with every one of them. -/
theorem energyIsTheSumOfSquaredMagnitudes : Obligations.EnergyIsTheSumOfSquaredMagnitudes := by
  intro x hx
  have : NeZero x.length := ⟨fun h => hx (List.length_eq_zero_iff.1 h)⟩
  have energy : Num.exact.energy (Num.exact.spectrum x) = (x.map fun z => Complex.normSq (toComplex z)).sum := by
    rw [exact_energy_spectrum rfl]
    refine (sum_eq_sum_zmod (by simp) fun n hn => ?_).symm
    rw [List.getElem_map, signal_natCast rfl]
  exact ⟨energy, energy ▸ sum_normSq_eq_zero_iff x⟩

/-! ### The noiseless symbol (O58) -/

/-- Dechirping takes the chirp off the symbol: a tone of `v` turns per symbol remains, with its phase (rule R137). -/
theorem exact_cmul_cmul_conj (p q : ℝ) :
    Num.exact.cmul (realArith.cmulFormula (exactCis p) (exactCis q)) (Num.exact.conj (exactCis p)) = exactCis q := by
  have unit := Real.cos_sq_add_sin_sq (2 * Real.pi * p)
  refine Prod.ext ?_ ?_
  · change (Real.cos _ * Real.cos _ - Real.sin _ * Real.sin _) * Real.cos _ -
      (Real.cos _ * Real.sin _ + Real.sin _ * Real.cos _) * -Real.sin _ = Real.cos _
    linear_combination Real.cos (2 * Real.pi * q) * unit
  · change (Real.cos _ * Real.cos _ - Real.sin _ * Real.sin _) * -Real.sin _ +
      (Real.cos _ * Real.sin _ + Real.sin _ * Real.cos _) * Real.cos _ = Real.sin _
    linear_combination Real.sin (2 * Real.pi * q) * unit

/-- The tone the dechirped symbol is. -/
noncomputable def exactTone (sf v : ℕ) (q : ℝ) : List (Cx ℝ) :=
  (List.range (2 ^ sf)).map fun n : ℕ => exactCis ((v : ℝ) * n / 2 ^ sf + q)

theorem hadamard_exactSymbol (sf v : ℕ) (q : ℝ) :
    Num.exact.hadamard (exactSymbol sf v q) (Num.exact.gen sf 1).2 = exactTone sf v q := by
  have down : (Num.exact.gen sf 1).2 =
      (List.range (2 ^ sf)).map fun n : ℕ => Num.exact.conj (exactCis (exactTheta sf 1 n)) := by
    change ((List.range (2 ^ sf * 1)).map (Num.exact.upSample sf 1)).map Num.exact.conj = _
    rw [mul_one, List.map_map]
    exact List.map_congr_left fun n _ => congrArg Num.exact.conj (exact_upSample sf 1 n)
  rw [down, Num.hadamard, exactSymbol, exactTone, List.zipWith_map, List.zipWith_self]
  exact List.map_congr_left fun n _ => exact_cmul_cmul_conj _ _

theorem exactTone_length (sf v : ℕ) (q : ℝ) : (exactTone sf v q).length = 2 ^ sf := by simp [exactTone]

theorem signal_exactTone (sf v : ℕ) (q : ℝ) (n : ZMod (2 ^ sf)) :
    signal (2 ^ sf) (exactTone sf v q) n = ZMod.stdAddChar ((v : ZMod (2 ^ sf)) * n) * toComplex (exactCis q) := by
  have turns : (v : ℝ) * n.val / 2 ^ sf = ((v * n.val : ℤ) : ℝ) / (2 ^ sf : ℕ) := by push_cast; rfl
  have hn : n.val < (exactTone sf v q).length := (exactTone_length sf v q).symm ▸ n.val_lt
  have sample := signal_natCast (exactTone_length sf v q) hn
  rw [ZMod.natCast_zmod_val] at sample
  rw [sample]
  simp only [exactTone, List.getElem_map, List.getElem_range]
  rw [toComplex_exactCis_add, turns, toComplex_exactCis_div]
  simp

/-- The tone has one line, at its own bin (rule R137: every other bin is zero). -/
theorem dft_exactTone (sf v : ℕ) (q : ℝ) (k : ZMod (2 ^ sf)) :
    𝓕 (signal (2 ^ sf) (exactTone sf v q)) k = if (v : ZMod (2 ^ sf)) = k then 2 ^ sf * toComplex (exactCis q) else 0 := by
  have line : 𝓕 (signal (2 ^ sf) (exactTone sf v q)) k =
      (∑ n : ZMod (2 ^ sf), ZMod.stdAddChar (n * ((v : ZMod (2 ^ sf)) - k))) * toComplex (exactCis q) := by
    rw [ZMod.dft_apply, Finset.sum_mul]
    refine Finset.sum_congr rfl fun n _ => ?_
    have shift : n * ((v : ZMod (2 ^ sf)) - k) = -(n * k) + v * n := by ring
    rw [signal_exactTone, smul_eq_mul, ← mul_assoc, ← AddChar.map_add_eq_mul, shift]
  rw [line, AddChar.sum_mulShift _ (ZMod.isPrimitive_stdAddChar _), ZMod.card]
  simp [sub_eq_zero, ite_mul]

theorem spectrum_exactTone {sf v : ℕ} (hv : v < 2 ^ sf) (q : ℝ) :
    Num.exact.spectrum (exactTone sf v q) = (List.range (2 ^ sf)).map fun k => if v = k then ((2 : ℝ) ^ sf) ^ 2 else 0 := by
  rw [exact_spectrum (exactTone_length sf v q)]
  refine List.map_congr_left fun k hk => ?_
  have same : (v : ZMod (2 ^ sf)) = k ↔ v = k := by
    rw [ZMod.natCast_eq_natCast_iff', Nat.mod_eq_of_lt hv, Nat.mod_eq_of_lt (List.mem_range.1 hk)]
  rw [dft_exactTone]
  simp only [same]
  split
  · rw [map_mul, normSq_exactCis, mul_one]
    simp [← Complex.ofReal_ofNat, ← Complex.ofReal_pow, sq]
  · exact map_zero _

theorem energy_exactTone (sf v : ℕ) (q : ℝ) : Num.exact.energy (Num.exact.spectrum (exactTone sf v q)) = 2 ^ sf := by
  rw [exact_energy_spectrum (exactTone_length sf v q)]
  have unit (n : ZMod (2 ^ sf)) : Complex.normSq (signal (2 ^ sf) (exactTone sf v q) n) = 1 := by
    rw [signal_exactTone, map_mul, normSq_exactCis, mul_one, Complex.normSq_eq_norm_sq, AddChar.norm_apply, one_pow]
  simp [unit]

theorem argmax_exactTone {sf v : ℕ} (hv : v < 2 ^ sf) (q : ℝ) :
    Num.exact.argmax (Num.exact.spectrum (exactTone sf v q)) = v := by
  rw [spectrum_exactTone hv]
  have peak : (0 : ℝ) < ((2 : ℝ) ^ sf) ^ 2 := by positivity
  refine peakIsTheLeastIndexOfTheMaximum ℝ Num.exact _ v (((2 : ℝ) ^ sf) ^ 2) (by simp [hv]) ?_ fun j z hj hz => ?_
  · refine List.forall_mem_map.2 fun k _ => decide_eq_true ?_
    change (if v = k then ((2 : ℝ) ^ sf) ^ 2 else 0) ≤ _
    split
    · exact le_rfl
    · exact peak.le
  · have zero : z = 0 := by simpa [hj.trans hv, hj.ne', eq_comm] using hz
    exact ⟨_, List.mem_map.2 ⟨v, List.mem_range.2 hv, if_pos rfl⟩, decide_eq_false (by simp [zero])⟩

/-- Settles O58: dechirped, the symbol is the tone of bin `v`. -/
theorem noiselessSymbolDecodesToItsValue : Obligations.NoiselessSymbolDecodesToItsValue := by
  intro sf v q _ _ hv
  have notSilent : ¬Num.exact.isZero ((2 : ℝ) ^ sf) = true := ne_true_of_eq_false (decide_eq_false (by positivity))
  simp only [Num.demod, hadamard_exactSymbol, energy_exactTone, argmax_exactTone hv, if_neg notSilent]

end Sys2Proof.Machine
end

section
/-! Unit `spectral_peak_interpolator`: the command `INTERP` (rule R148), and what rules R146 and R147 say of the sub-bin
correction and of `fold` over the exact real numbers. -/

namespace Sys2Proof.Machine

/-! ### `INTERP` (O26) -/

/-- Settles O26: `INTERP` reads registers only, so in `TEST` mode its body always completes. -/
theorem interpWritesTheSubBinCorrection : Obligations.InterpWritesTheSubBinCorrection :=
  fun _ ht => exec_unit_ok (i := .interp) rfl ht rfl

/-! ### `fold` over the real numbers (O56) -/

/-- The two branches of rule R147: the floor modulus by 1 is the fractional part, and its upper half is moved down by 1. -/
theorem realArith_fold (x : ℝ) : realArith.fold x = if Int.fract x ≤ 1 / 2 then Int.fract x else Int.fract x - 1 := by
  simp [Arith.fold, Arith.ofNat, realArith]

/-- Settles O56, branch by branch: the fractional part lies in `[0, 1)` and is `x` less its floor. -/
theorem foldReducesIntoTheHalfOpenInterval : Obligations.FoldReducesIntoTheHalfOpenInterval := by
  intro x
  have nonneg := Int.fract_nonneg x
  have lt_one := Int.fract_lt_one x
  have eq_fract := Int.self_sub_floor x
  rw [realArith_fold]
  split_ifs with low
  · refine ⟨by linarith, low, -⌊x⌋, ?_⟩
    push_cast
    linarith
  · refine ⟨by linarith, by linarith, -⌊x⌋ - 1, ?_⟩
    push_cast
    linarith

/-! ### The sub-bin correction over the real numbers (O60) -/

/-- The formula of rule R146. Its case of a zero denominator is Mathlib's division by 0. -/
theorem exact_interp3 (a b c : ℝ) :
    Num.exact.interp3 a b c = realArith.interpGain * (c - a) / (c + a + 2.4674 * b) := by
  have ratio : (24674 : ℝ) / 10000 = 2.4674 := by norm_num
  change realArith.interp3Formula a b c = _
  by_cases den : c + a + 2.4674 * b = 0 <;> simp [Arith.interp3Formula, Arith.zero, realArith, ratio, den]

theorem realArith_interpGain_pos : 0 < realArith.interpGain := by
  have := Real.pi_pos
  change 0 < 406.5506497 / (64 * Real.pi)
  positivity

/-- The correction is greatest, `G / 3.4674`, where `Ym1 = 0` and `Yp1 = Y0`; this stays a little below the bound. -/
theorem realArith_interpGain_lt : realArith.interpGain < 0.5835 * 3.4674 := by
  have := Real.pi_gt_d2
  change 406.5506497 / (64 * Real.pi) < _
  rw [div_lt_iff₀ (by positivity)]
  linarith

/-- The outer values differ by at most the greatest of the three, and by at most their sum. -/
theorem abs_sub_le_denominator {a b c : ℝ} (ha : 0 ≤ a) (hc : 0 ≤ c) (hab : a ≤ b) (hcb : c ≤ b) :
    3.4674 * |c - a| ≤ c + a + 2.4674 * b := by
  have le_sum : |c - a| ≤ c + a := abs_le.2 ⟨by linarith, by linarith⟩
  have le_peak : |c - a| ≤ b := abs_le.2 ⟨by linarith, by linarith⟩
  linarith

theorem abs_exact_interp3_lt {a b c : ℝ} (ha : 0 ≤ a) (hc : 0 ≤ c) (hab : a ≤ b) (hcb : c ≤ b) :
    |Num.exact.interp3 a b c| < 0.584 := by
  have den_le := abs_sub_le_denominator ha hc hab hcb
  have den_nonneg : 0 ≤ c + a + 2.4674 * b := by linarith
  rw [exact_interp3, abs_div, abs_mul, abs_of_pos realArith_interpGain_pos, abs_of_nonneg den_nonneg]
  obtain den | den := den_nonneg.eq_or_lt
  · rw [← den, div_zero]
    norm_num
  · rw [div_lt_iff₀ den]
    calc realArith.interpGain * |c - a|
      _ ≤ 0.5835 * 3.4674 * |c - a| := mul_le_mul_of_nonneg_right realArith_interpGain_lt.le (abs_nonneg _)
      _ ≤ 0.5835 * (c + a + 2.4674 * b) := by linarith
      _ < 0.584 * (c + a + 2.4674 * b) := by linarith

/-- Settles O60: swapping the outer values changes the sign of the numerator only, and a quotient by 0 is 0. -/
theorem subBinCorrectionIsBounded : Obligations.SubBinCorrectionIsBounded := by
  intro a b c
  refine ⟨?_, fun den => ?_, abs_exact_interp3_lt⟩
  · rw [exact_interp3, exact_interp3, add_comm a c, ← neg_sub c a, mul_neg, neg_div]
  · rw [exact_interp3, den, div_zero]

end Sys2Proof.Machine
end

section
/-! `STOEST` (rule R171): the model adds whole spectra symbol by symbol; bin by bin the sum is the rule's, from symbol 0 on. -/

namespace Sys2Proof.Machine

/-! ### The summed spectrum by bin -/

/-- Lists added up element by element are, at each index, the elements added up. -/
theorem foldl_zipWith_map_range {α β : Type} (add : β → β → β) (row : α → List β) (d : β) {l : Nat} :
    ∀ (is : List α) (f : Nat → β), (∀ i ∈ is, (row i).length = l) →
      is.foldl (fun acc i => List.zipWith add acc (row i)) ((List.range l).map f) =
        (List.range l).map fun k => is.foldl (fun a i => add a ((row i).getD k d)) (f k)
  | [], _, _ => rfl
  | i :: is, f, hrow => by
    obtain ⟨hi, his⟩ := List.forall_mem_cons.1 hrow
    have first : List.zipWith add ((List.range l).map f) (row i) =
        (List.range l).map fun k => add (f k) ((row i).getD k d) := by
      apply List.ext_getElem
      · simp [hi]
      · intro k hk _
        have inRow : k < (row i).length := by simp at hk; omega
        simp [inRow]
    rw [List.foldl_cons, first, foldl_zipWith_map_range add row d is _ his]
    rfl

section

variable {R : Type} (num : Num R) (n m : Nat) (prec down : List (Cx R))

/-- The squared magnitudes of the doubled transform of symbol `i`, dechirped. -/
def Num.stoMags (i : Nat) : List R :=
  (num.dft (((List.range n).map fun j => num.cmul (prec.getD (i * n + j) num.czero) (down.getD j num.czero)) ++
    List.replicate n num.czero)).map num.sqmag

/-- Their sums over the first `m` symbols, bin by bin. -/
def Num.stoSums : List R :=
  (List.range (2 * n)).map fun k =>
    (List.range m).foldl (fun a i => num.add a ((num.stoMags n prec down i).getD k num.zero)) num.zero

variable {num n m prec down}

theorem Num.stoSpectrum_eq (hdft : ∀ x : List (Cx R), (num.dft x).length = x.length) (hprec : prec.length = m * n)
    (hdown : down.length = n) : num.stoSpectrum n m prec down = num.stoSums n m prec down := by
  have mags : ∀ i ∈ List.range m,
      num.spectrum (num.hadamard (symbolAt n prec i) down ++ num.padding n) = num.stoMags n prec down i := by
    intro i hi
    rw [hadamard_symbolAt num hprec hdown (List.mem_range.1 hi)]
    rfl
  have doubled : ∀ i ∈ List.range m, (num.stoMags n prec down i).length = 2 * n := by
    intro i _
    simp [Num.stoMags, hdft, two_mul]
  have zeros : List.replicate (2 * n) num.zero = (List.range (2 * n)).map fun _ => num.zero := by simp
  rw [Num.stoSums, ← foldl_zipWith_map_range num.add _ num.zero _ _ doubled, ← zeros]
  exact List.foldl_ext _ _ _ fun acc i hi => congrArg (List.zipWith num.add acc) (mags i hi)

end

/-! ### The command (O29) -/

/-- `Peak3` of an array of known length (rule R149). -/
theorem Num.peak3_eq {R : Type} (num : Num R) {s : List R} {p : Nat} (hp : s.length = p) :
    num.peak3 s =
      { k0 := num.argmax s, ym1 := s.getD ((num.argmax s + p - 1) % p) num.zero, y0 := s.getD (num.argmax s) num.zero,
        yp1 := s.getD ((num.argmax s + 1) % p) num.zero } := by
  subst hp
  rfl

theorem runUnit_stoest_written {s : State} (hprec : Written s .prec (s.nused * s.n)) (hdown : Written s .down s.n) :
    runUnit .stoest s =
      .ok (s.setSto (s.nums.stoest s.n s.nused (s.vec .prec (s.nused * s.n)) (s.vec .down s.n))) :=
  (runStoest_ok s _).2 ⟨hprec, hdown, rfl⟩

/-- Settles O29: with its operands written `STOEST` completes, and the spectrum it searches is the rule's, bin by bin. -/
theorem stoestWritesTheTimingEstimate : Obligations.StoestWritesTheTimingEstimate := by
  intro s ht hprec hdown
  have run := runUnit_stoest_written hprec hdown
  rw [Num.stoest, Num.stoSpectrum_eq s.dft_length hprec.vec_length hdown.vec_length,
    s.nums.peak3_eq (p := 2 * s.n) (by simp [Num.stoSums])] at run
  exact exec_unit_ok (i := .stoest) rfl ht run

end Sys2Proof.Machine
end

section
/-! `CFOEST` (rules R156 to R161): the model runs over the indexed samples of the preamble; each vector is read here as a function
of the sample's index, which is the form of the rules. -/

namespace Sys2Proof.Machine

/-- A function of each entry of a list and its index, tabulated by the index. -/
theorem map_zipIdx_eq_map_range {α β : Type} (f : α → Nat → β) {xs : List α} {m : Nat} (hm : xs.length = m) (d : α) :
    xs.zipIdx.map (fun xi => f xi.1 xi.2) = (List.range m).map fun i => f (xs.getD i d) i := by
  apply List.ext_getElem
  · simp [hm]
  · intro i hi _
    have inList : i < xs.length := by simpa using hi
    simp [inList]

/-! ### The doubled transform and the corrected preamble by sample index -/

section

variable {R : Type} (num : Num R)

/-- The squared magnitudes of the transform of the `m` preamble samples, dechirped and zero-padded to double length (rule
R156). -/
def Num.cfoMags (n m : Nat) (pre down : List (Cx R)) : List R :=
  (num.dft (((List.range m).map fun i => num.cmul (pre.getD i num.czero) (down.getD (i % n) num.czero)) ++
    List.replicate m num.czero)).map num.sqmag

variable {n m : Nat} {pre : List (Cx R)}

theorem Num.spectrum_dechirpPreamble (hpre : pre.length = m) (down : List (Cx R)) :
    num.spectrum (num.dechirpPreamble n pre down) = num.cfoMags n m pre down := by
  rw [Num.spectrum, Num.dechirpPreamble, Num.padding, hpre,
    map_zipIdx_eq_map_range (fun z i => num.cmul z (down.getD (i % n) num.czero)) hpre num.czero, Num.cfoMags]

theorem Num.correctPreamble_eq (hpre : pre.length = m) (lam : R) :
    num.correctPreamble n lam pre =
      (List.range m).map fun i => num.cmul (pre.getD i num.czero) (num.ramp lam i n) :=
  map_zipIdx_eq_map_range (fun z i => num.cmul z (num.ramp lam i n)) hpre num.czero

/-- What `cfoest` computes, by sample index, where the transform keeps the length of its vector. -/
theorem Num.cfoest_eq (hdft : ∀ x : List (Cx R), (num.dft x).length = x.length) {nused : Nat} (hpre : pre.length = m)
    (down : List (Cx R)) :
    num.cfoest n nused pre down =
      let mags := num.cfoMags n m pre down
      let k0 := num.argmax mags
      let ym1 := mags.getD ((k0 + 2 * m - 1) % (2 * m)) num.zero
      let y0 := mags.getD k0 num.zero
      let yp1 := mags.getD ((k0 + 1) % (2 * m)) num.zero
      let ka := num.interp3 ym1 y0 yp1
      let lam := num.fold (num.div (num.add (num.ofNat k0) ka) (num.ofNat (2 * nused)))
      { peak := { k0 := k0, ym1 := ym1, y0 := y0, yp1 := yp1 }, ka := ka, lambda := lam
        prec := (List.range m).map fun i => num.cmul (pre.getD i num.czero) (num.ramp lam i n)
        corr := (List.range n).map fun i => num.ramp lam i n } := by
  have doubled : (num.cfoMags n m pre down).length = 2 * m := by simp [Num.cfoMags, hdft, two_mul]
  simp only [Num.cfoest, num.spectrum_dechirpPreamble hpre, num.peak3_eq doubled, num.correctPreamble_eq hpre,
    Num.peakCorrection, Num.correction]

end

/-! ### The memories after `CFOEST` -/

theorem holds_setCfo (s : State) (r : CfoResult Word) :
    Holds (s.setCfo r) .prec 0 r.prec ∧ Holds (s.setCfo r) .corr 0 r.corr :=
  ⟨holds_storeElems (s := s.setPeak r.peak r.ka) .prec r.prec,
    holds_storeElems (s := (s.setPeak r.peak r.ka).storeElems .prec 0 r.prec) .corr r.corr⟩

/-- `CFOEST` stores its two vectors and no other word. -/
theorem load_setCfo_frame {s : State} {r : CfoResult Word} {sp : Space} {off : Nat}
    (hprec : ¬(sp = .prec ∧ off < 2 * r.prec.length)) (hcorr : ¬(sp = .corr ∧ off < 2 * r.corr.length)) :
    (s.setCfo r).load sp off = s.load sp off :=
  (load_storeElems_frame hcorr).trans (load_storeElems_frame hprec)

theorem Holds.elem_map_range {s : State} {sp : Space} {f : Nat → Sample} {m i : Nat}
    (h : Holds s sp 0 ((List.range m).map f)) (hi : i < m) : (s.mem sp).elem i = some (f i) :=
  h.elem (by simp [hi])

/-! ### The command (O27) -/

theorem runUnit_cfoest_written {s : State} (hpre : Written s .pre (s.nused * s.n)) (hdown : Written s .down s.n) :
    runUnit .cfoest s =
      .ok (s.setCfo (s.nums.cfoest s.n s.nused (s.vec .pre (s.nused * s.n)) (s.vec .down s.n))) :=
  (runCfoest_ok s _).2 ⟨hpre, hdown, rfl⟩

/-- Settles O27: with its operands written `CFOEST` completes, and the vectors it stores are the rules', sample by sample. -/
theorem cfoestWritesEstimateAndCorrections : Obligations.CfoestWritesEstimateAndCorrections := by
  intro s ht hpre hdown num m pre down mags k0 ym1 y0 yp1 ka lam ramp
  have run := runUnit_cfoest_written hpre hdown
  obtain ⟨prec, corr⟩ := holds_setCfo s (num.cfoest s.n s.nused (s.vec .pre m) (s.vec .down s.n))
  rw [s.nums.cfoest_eq s.dft_length hpre.vec_length] at run prec corr
  refine ⟨_, exec_unit_ok (i := .cfoest) rfl ht run, rfl, fun i hi => prec.elem_map_range hi,
    fun i hi => corr.elem_map_range hi, fun sp off hprec hcorr => load_setCfo_frame ?_ ?_⟩
  · simpa using hprec
  · simpa using hcorr

end Sys2Proof.Machine
end

section
/-! `FDLY` and `DOWNS` (rules R181 to R184): the tap as the lesser of the rounded product and `OS - 1`, and the downsampler read
index by index. -/

namespace Sys2Proof.Machine

/-! ### `FDLY` (O30) -/

/-- The tap of rule R181 where the product is a real number. -/
theorem Num.tap_of_roundHaz {R : Type} {num : Num R} {lam : R} {os : Nat} {r : Int}
    (h : num.roundHaz (num.mul lam (num.ofNat os)) = some r) :
    num.tap lam os = if r < (os : Int) - 1 then r else os - 1 := by
  rw [Num.tap, h]
  exact min_def_lt r _

/-- Settles O30: the body of `FDLY` sets `DELAY_D` to the tap and cannot fault. -/
theorem fdlyWritesTheDelayTap : Obligations.FdlyWritesTheDelayTap := fun s ht =>
  ⟨s.setTap.delayD, exec_unit_ok (i := .fdly) rfl ht rfl, fun _ hr => congrArg intWord (Num.tap_of_roundHaz hr)⟩

/-! ### The downsampled vector -/

@[simp] theorem downsampleIndices_length (os n : Nat) (d : Int) : (downsampleIndices os n d).length = n := by
  simp [downsampleIndices]

theorem Mem.written_downsampleIndices_iff (m : Mem) (os n : Nat) (d : Int) :
    m.written (downsampleIndices os n d) = true ↔
      ∀ i : Nat, i < n → (m.elem ((os : Int) - 1 + os * i - d)).isSome = true := by
  simp [Mem.written_iff, downsampleIndices]

/-- Sample `i` of the downsampled vector (rule R183). -/
theorem Mem.values_downsampleIndices_get {m : Mem} {os n : Nat} {d : Int}
    (h : m.written (downsampleIndices os n d) = true) {i : Nat} (hi : i < n) :
    (m.values (downsampleIndices os n d))[i]? = m.elem ((os : Int) - 1 + os * i - d) := by
  rw [Mem.values_get m _ h i (by simpa using hi)]
  simp [downsampleIndices]

/-! ### `DOWNS` (O31) -/

theorem sameBut_storeElems (s : State) (sp : Space) (xs : List Sample) :
    SameBut s (s.storeElems sp 0 xs) sp 0 xs.length := fun _ _ outside =>
  load_storeElems_frame fun ⟨hsp, hoff⟩ => outside ⟨hsp, Nat.zero_le _, by omega⟩

/-- Settles O31: with the indices of rule R183 written `DOWNS` stores their `N` samples from `SYM[0]` on, and no other word. -/
theorem downsTakesOneSampleInEveryOs : Obligations.DownsTakesOneSampleInEveryOs := by
  intro s ht at_ hread
  have hwritten := (Mem.written_downsampleIndices_iff (s.mem .inbuf) s.os s.n s.delayD.toInt).2 hread
  have run : runUnit .downs s = .ok _ := (runDowns_ok s _).2 ⟨hwritten, rfl⟩
  have stored := holds_storeElems (s := s) .sym ((s.mem .inbuf).values (downsampleIndices s.os s.n s.delayD.toInt))
  have frame := sameBut_storeElems s .sym ((s.mem .inbuf).values (downsampleIndices s.os s.n s.delayD.toInt))
  rw [Mem.values_length _ _ hwritten, downsampleIndices_length] at frame
  refine ⟨_, exec_unit_ok (i := .downs) rfl ht run, rfl, fun i hi => ?_, frame⟩
  obtain ⟨x, hx⟩ := Option.isSome_iff_exists.1 (hread i hi)
  exact (stored.elem ((Mem.values_downsampleIndices_get hwritten hi).trans hx)).trans hx.symm

end Sys2Proof.Machine
end

section
/-! The steps of the state machine in `TEST` mode (rules R191 to R201): what each of them leaves, position by position. -/

namespace Sys2Proof.Machine

/-! ### A step that completes -/

section

variable {s u : State}

theorem fsmStep_of_stepCase (h : stepCase s.clearReport = .ok u) : fsmStep s = .ok u.countUp :=
  (fsmStep_ok s _).2 ⟨u, h, rfl⟩

theorem fsmStep_of_stepSync {p : SyncPos} (hstate : s.acq.state = .sync) (hpos : s.acq.syncPos = p)
    (h : stepSync p s.clearReport = .ok u) : fsmStep s = .ok u.countUp :=
  fsmStep_of_stepCase ((stepCase_sync (s := s.clearReport) hstate).trans (hpos ▸ h))

/-- A step that produces nothing adds what it consumes to `IN_COUNT` and moves no other counter (rule R191). -/
theorem exec_fsmstep_of_produced_zero (ht : Testing s) (run : fsmStep s = .ok u.countUp) (silent : u.report.produced = 0) :
    exec .fsmstep s = .next { u with
      err := .none, count := { u.count with inCount := u.count.inCount + u.report.consumed.setWidth 64 } } := by
  rw [countUp_of_produced_zero silent] at run
  exact exec_unit_ok (i := .fsmstep) rfl ht run

theorem countUp_of_idle (consumed : s.report.consumed = 0) (produced : s.report.produced = 0) : s.countUp = s := by
  have still : s.count.inCount + s.report.consumed.setWidth 64 = s.count.inCount := by
    rw [consumed]
    exact BitVec.add_zero _
  rw [countUp_of_produced_zero produced, still]

theorem estimateAndCorrelate_written (ref : RefSel) (hdone : s.acq.estDone = true) (hsym : Written s .sym s.n)
    (hcorr : Written s .corr s.n) (href : Written s (refSpace ref) s.n) :
    estimateAndCorrelate ref s = .ok ((s.nums.demod s.corrected (s.vec (refSpace ref) s.n)).1,
      s.setCorrelator (s.nums.demod s.corrected (s.vec (refSpace ref) s.n))) :=
  (estimateAndCorrelate_ok ref s _).2
    ⟨s, _, estimate_done hdone, readCorrected_written hsym hcorr, (correlate_ok _ ref s _).2 ⟨href, rfl⟩⟩

end

/-! ### The tests on a decoded bin -/

theorem ignored_some (b n : Nat) : ignored (some b) n = true ↔ b = 0 ∨ b = 1 ∨ b + 1 = n := by
  simp [ignored, or_assoc]

theorem nearId_some (b id : Nat) : nearId (some b) id = true ↔ ((b : Int) - id).natAbs ≤ 1 := by
  simp [nearId]

theorem binsMatch_iff (b : Option Nat) (prev : Word) :
    binsMatch b prev = true ↔ b ≠ none ∧ prev ≠ nosymWord ∧ (((b.getD 0 : Nat) : Int) - prev.toInt).natAbs ≤ 1 := by
  cases b <;> simp [binsMatch]

/-! ### `DETECT` (O36) -/

section

variable {s : State}

theorem holds_storeElems_slot (sp : Space) (i : Nat) (xs : List Sample) : Holds (s.storeElems sp i xs) sp i xs := by
  intro j x hx
  obtain ⟨hj, -⟩ := List.getElem?_eq_some_iff.1 hx
  rw [State.storeElems_mem, if_pos rfl, Mem.elem_store, if_pos ⟨by omega, by omega⟩, Nat.add_sub_cancel_left]
  exact hx

theorem sameBut_storeElems_slot (sp : Space) (i : Nat) (xs : List Sample) :
    SameBut s (s.storeElems sp i xs) sp i xs.length := by
  intro sp' off outside
  rw [State.load, State.storeElems_mem]
  split
  · next hsp =>
    subst hsp
    have beyond : ¬(2 * i ≤ off ∧ off < 2 * (i + xs.length)) := fun inside => outside ⟨rfl, inside⟩
    exact Mem.load_store_outside _ _ _ _ (by rw [wordsOf_length]; omega)
  · rfl

end

/-- The slot of `PRE` a symbol goes to (rule R192). -/
def State.trackSlot (s : State) (b : Option Nat) : Nat := if binsMatch b s.acq.binPrev then s.acq.matchCnt.toNat else 0

/-- The sum of the bins of the run the symbol continues or begins (rule R192). -/
def State.trackSum (s : State) (b : Option Nat) : Word :=
  if binsMatch b s.acq.binPrev then s.acq.kHat + BitVec.ofNat 32 (b.getD 0) else BitVec.ofNat 32 (b.getD 0)

/-- The length of that run (rule R192). -/
def State.trackCount (s : State) (b : Option Nat) : Word := if binsMatch b s.acq.binPrev then s.acq.matchCnt + 1 else 1

theorem State.track_eq (s : State) (b : Option Nat) (x : List Sample) :
    s.track b x = { s.storeElems .pre (s.trackSlot b * s.n) x with
      acq := { s.acq with kHat := s.trackSum b, matchCnt := s.trackCount b, binPrev := binWord b } } := by
  unfold State.track State.trackSlot State.trackSum State.trackCount
  split
  · rfl
  · rw [Nat.zero_mul]; rfl

/-- With its operands written the step correlates, tracks the symbol and ends (rules R192, R193). -/
theorem stepDetect_written {s : State} (hsym : Written s .sym s.n) (hdown : Written s .down s.n) :
    let be := s.nums.demod (s.vec .sym s.n) (s.vec .down s.n)
    stepDetect s = .ok ((s.setCorrelator be).track be.1 (s.vec .sym s.n)).endDetect :=
  (stepDetect_ok s _).2 ⟨_, _, hsym, (correlate_ok _ .down s _).2 ⟨hdown, rfl⟩, rfl⟩

/-- Settles O36: the symbol goes to its slot of `PRE`, and the run either has its length now or goes on. -/
theorem detectStepTracksThePreamble : Obligations.DetectStepTracksThePreamble := by
  intro s ht hstate hsym hdown be matched slot sum cnt mean done used bin
  have hmatch : binsMatch be.1 s.acq.binPrev = true ↔ matched := binsMatch_iff be.1 s.acq.binPrev
  have hslot : s.trackSlot be.1 = slot := if_congr hmatch rfl rfl
  have hsum : s.trackSum be.1 = sum := if_congr hmatch rfl rfl
  have hcnt : s.trackCount be.1 = cnt := if_congr hmatch rfl rfl
  have hbin : binWord be.1 = bin := by
    dsimp only [bin]
    cases be.1 <;> rfl
  have hmean : roundHazFrac sum.toNat (s.nup - 1) = mean := roundHazFrac_natCast _ _
  have hlen : (s.vec .sym s.n).length = s.n := hsym.vec_length
  have tracked : (s.clearReport.setCorrelator be).track be.1 (s.vec .sym s.n) =
      { (s.clearReport.setCorrelator be).storeElems .pre (slot * s.n) (s.vec .sym s.n) with
        acq := { s.acq with kHat := sum, matchCnt := cnt, binPrev := bin } } := by
    rw [State.track_eq, ← hslot, ← hsum, ← hcnt, ← hbin]
    rfl
  have run : stepCase s.clearReport = .ok ((s.clearReport.setCorrelator be).track be.1 (s.vec .sym s.n)).endDetect :=
    (stepCase_detect (s := s.clearReport) hstate).trans (stepDetect_written (s := s.clearReport) hsym hdown)
  rw [tracked] at run
  have stored : Holds (s.storeElems .pre (slot * s.n) (s.vec .sym s.n)) .pre (slot * s.n) (s.vec .sym s.n) :=
    holds_storeElems_slot _ _ _
  have frame : SameBut s (s.storeElems .pre (slot * s.n) (s.vec .sym s.n)) .pre (slot * s.n) s.n :=
    by simpa only [hlen] using sameBut_storeElems_slot (s := s) .pre (slot * s.n) (s.vec .sym s.n)
  by_cases hdone : done
  · have ended := run.trans (congrArg Except.ok (if_pos hdone))
    have next := exec_fsmstep_of_produced_zero ht (fsmStep_of_stepCase ended) rfl
    refine ⟨_, next, ?_, stored, frame⟩
    dsimp only [used]
    rw [if_pos hdone, if_pos hdone, ← hmean]
    rfl
  · have ended := run.trans (congrArg Except.ok (if_neg hdone))
    have next := exec_fsmstep_of_produced_zero ht (fsmStep_of_stepCase ended) rfl
    refine ⟨_, next, ?_, stored, frame⟩
    dsimp only [used]
    rw [if_neg hdone, if_neg hdone]
    rfl

/-! ### `NET_ID1` (O38) -/

/-- The rest of a step at `NET_ID1`, past the correlation (rule R195). -/
def State.endNetId1 (t : State) (n id : Nat) (b : Option Nat) : State :=
  if ignored b n then t.consume n
  else if nearId b id then
    { t.consume n with acq := { t.acq with netIdOff := intWord (deviation b id), syncPos := .netId2 } }
  else (t.consume n).resync .netId1

theorem stepNetId1_iff (s t : State) :
    stepNetId1 s = .ok t ↔
      ∃ b u, estimateAndCorrelate .down s = .ok (b, u) ∧ t = u.endNetId1 s.n s.cfg.netId1 b := stepNetId1_ok s t

section

variable {t : State} {n id b : Nat}

theorem endNetId1_ignored (h : b = 0 ∨ b = 1 ∨ b + 1 = n) : t.endNetId1 n id (some b) = t.consume n :=
  if_pos ((ignored_some b n).2 h)

theorem endNetId1_passed (h : ¬(b = 0 ∨ b = 1 ∨ b + 1 = n)) (near : ((b : Int) - id).natAbs ≤ 1) :
    t.endNetId1 n id (some b) =
      { t.consume n with acq := { t.acq with netIdOff := intWord ((b : Int) - id), syncPos := .netId2 } } :=
  (if_neg (mt (ignored_some b n).1 h)).trans (if_pos ((nearId_some b id).2 near))

theorem endNetId1_failed (h : ¬(b = 0 ∨ b = 1 ∨ b + 1 = n)) (far : 1 < ((b : Int) - id).natAbs) :
    t.endNetId1 n id (some b) = (t.consume n).resync .netId1 :=
  (if_neg (mt (ignored_some b n).1 h)).trans (if_neg (mt (nearId_some b id).1 (Nat.not_le.2 far)))

theorem endNetId1_none : t.endNetId1 n id none = (t.consume n).resync .netId1 := rfl

end

/-- Settles O38: past the correlation the step tests the ignore set first, then the identifier. -/
theorem netId1StepIgnoresFailsOrAdvances : Obligations.NetId1StepIgnoresFailsOrAdvances := by
  intro s ht hstate hpos hdone hsym hcorr hdown be used r
  have corr := estimateAndCorrelate_written (s := s.clearReport) .down hdone hsym hcorr hdown
  have run : fsmStep s = .ok ((s.clearReport.setCorrelator be).endNetId1 s.n s.cfg.netId1 be.1).countUp :=
    fsmStep_of_stepSync hstate hpos ((stepNetId1_iff s.clearReport _).2 ⟨be.1, _, corr, rfl⟩)
  refine ⟨fun b hb hign => ?_, fun b hb hign hnear => ?_, fun b hb hign hfar => ?_, fun hb => ?_⟩
  · rw [hb, endNetId1_ignored hign] at run
    exact exec_fsmstep_of_produced_zero ht run rfl
  · rw [hb, endNetId1_passed hign hnear] at run
    exact exec_fsmstep_of_produced_zero ht run rfl
  · rw [hb, endNetId1_failed hign hfar] at run
    exact exec_fsmstep_of_produced_zero ht run rfl
  · rw [hb, endNetId1_none] at run
    exact exec_fsmstep_of_produced_zero ht run rfl

/-! ### `NET_ID2` (O39) -/

/-- The rest of a step at `NET_ID2`, past the correlation (rule R196). -/
def State.endNetId2 (t : State) (n id : Nat) (b : Option Nat) : State :=
  if nearId b id then
    { t with acq := { t.acq with syncPos := .downchirp1 } }.consume
      (if t.acq.netIdOff.toInt ≠ 0 ∧ deviation b id = t.acq.netIdOff.toInt then n - t.acq.netIdOff.toInt else n)
  else (t.consume n).resync .netId2

theorem stepNetId2_iff (s t : State) :
    stepNetId2 s = .ok t ↔
      ∃ b u, estimateAndCorrelate .down s = .ok (b, u) ∧ t = u.endNetId2 s.n s.cfg.netId2 b := stepNetId2_ok s t

section

variable {t : State} {n id b : Nat}

theorem endNetId2_passed (near : ((b : Int) - id).natAbs ≤ 1) :
    t.endNetId2 n id (some b) = { t with acq := { t.acq with syncPos := .downchirp1 } }.consume
      (if t.acq.netIdOff.toInt ≠ 0 ∧ (b : Int) - id = t.acq.netIdOff.toInt then n - t.acq.netIdOff.toInt else n) :=
  if_pos ((nearId_some b id).2 near)

theorem endNetId2_failed (far : 1 < ((b : Int) - id).natAbs) :
    t.endNetId2 n id (some b) = (t.consume n).resync .netId2 :=
  if_neg (mt (nearId_some b id).1 (Nat.not_le.2 far))

theorem endNetId2_none : t.endNetId2 n id none = (t.consume n).resync .netId2 := rfl

end

/-- Settles O39: past the correlation the step tests the identifier, and a repeated deviation shortens what it consumes. -/
theorem netId2StepFailsOrCompensates : Obligations.NetId2StepFailsOrCompensates := by
  intro s ht hstate hpos hdone hsym hcorr hdown be off r
  have corr := estimateAndCorrelate_written (s := s.clearReport) .down hdone hsym hcorr hdown
  have run : fsmStep s = .ok ((s.clearReport.setCorrelator be).endNetId2 s.n s.cfg.netId2 be.1).countUp :=
    fsmStep_of_stepSync hstate hpos ((stepNetId2_iff s.clearReport _).2 ⟨be.1, _, corr, rfl⟩)
  refine ⟨fun b hb hnear => ?_, fun b hb hfar => ?_, fun hb => ?_⟩
  · rw [hb, endNetId2_passed hnear] at run
    exact exec_fsmstep_of_produced_zero ht run rfl
  · rw [hb, endNetId2_failed hfar] at run
    exact exec_fsmstep_of_produced_zero ht run rfl
  · rw [hb, endNetId2_none] at run
    exact exec_fsmstep_of_produced_zero ht run rfl

/-! ### The down-chirps (O40) -/

/-- Settles O40: the first down-chirp is not examined, the result of the second is stored as its register word. -/
theorem downchirpStepsAdvanceAndStoreTheResult : Obligations.DownchirpStepsAdvanceAndStoreTheResult := by
  intro s ht hstate hdone used report count
  refine ⟨fun hpos => ?_, fun hpos hsym hcorr hup => ?_⟩
  · have run := (stepDownchirp1_ok s.clearReport _).2 ⟨_, estimate_done (s := s.clearReport) hdone, rfl⟩
    exact exec_fsmstep_of_produced_zero ht (fsmStep_of_stepSync hstate hpos run) rfl
  · intro be bin
    have hbin : binWord be.1 = bin := by
      dsimp only [bin]
      cases be.1 <;> rfl
    have corr := estimateAndCorrelate_written (s := s.clearReport) .up hdone hsym hcorr hup
    have run := (stepDownchirp2_ok s.clearReport _).2 ⟨be.1, _, corr, rfl⟩
    rw [← hbin]
    exact exec_fsmstep_of_produced_zero ht (fsmStep_of_stepSync hstate hpos run) rfl

/-! ### Frames (O42) -/

/-- The rest of a step that emits a block, past the reads (rule R200). -/
def State.emit (s : State) (z : List Sample) : State :=
  { (s.storeElems .outbuf 0 z).consume s.n with
    report := { s.report with consumed := intWord (s.os * s.n), produced := BitVec.ofNat 32 s.n }
    acq := { s.acq with symCnt := s.acq.symCnt + 1 } }

theorem stepEmit_iff (s t : State) : stepEmit s = .ok t ↔ ∃ z, readCorrected s = .ok z ∧ t = s.emit z := stepEmit_ok s t

theorem fsmStep_of_stepFrac {s u : State} (hstate : s.acq.state = .fracCfoCorrec) (h : stepFrac s.clearReport = .ok u) :
    fsmStep s = .ok u.countUp :=
  fsmStep_of_stepCase ((stepCase_frac (s := s.clearReport) hstate).trans h)

theorem corrected_length {s : State} (hsym : Written s .sym s.n) (hcorr : Written s .corr s.n) :
    s.corrected.length = s.n := readCorrected_length (readCorrected_written hsym hcorr)

/-- What such a step leaves once its counts are added (rules R191, R200). -/
theorem emit_counted (s : State) (z : List Sample) :
    (s.clearReport.emit z).countUp = { s with
      mems := (s.storeElems .outbuf 0 z).mems, acq := { s.acq with symCnt := s.acq.symCnt + 1 }
      report := { s.report with consumed := intWord (s.os * s.n), produced := BitVec.ofNat 32 s.n, tagValid := false }
      count := { s.count with
        inCount := s.count.inCount + (intWord (s.os * s.n)).setWidth 64
        outCount := s.count.outCount + (BitVec.ofNat 32 s.n).setWidth 64 } } := rfl

/-- Settles O42: with symbols outstanding the step emits the corrected symbol, without it ends the frame. -/
theorem frameStepsEmitThenEnd : Obligations.FrameStepsEmitThenEnd := by
  intro s ht hstate
  refine ⟨fun hout hsym hcorr => ?_, fun hend => ?_⟩
  · have emitted : stepFrac s.clearReport = .ok (s.clearReport.emit s.corrected) :=
      (if_pos hout).trans
        ((stepEmit_iff s.clearReport _).2 ⟨_, readCorrected_written (s := s.clearReport) hsym hcorr, rfl⟩)
    have next := exec_unit_ok (i := .fsmstep) rfl ht (fsmStep_of_stepFrac hstate emitted)
    have stored : Holds (s.storeElems .outbuf 0 s.corrected) .outbuf 0 s.corrected := holds_storeElems _ _
    have frame := sameBut_storeElems s .outbuf s.corrected
    rw [corrected_length hsym hcorr] at frame
    rw [emit_counted] at next
    exact ⟨_, next, rfl, stored, frame⟩
  · have ended : stepFrac s.clearReport = .ok (stepFrameEnd s.clearReport) := if_neg (Nat.not_lt.2 hend)
    have run := fsmStep_of_stepFrac hstate ended
    have idle : (stepFrameEnd s.clearReport).countUp = stepFrameEnd s.clearReport := countUp_of_idle rfl rfl
    rw [idle] at run
    exact exec_unit_ok (i := .fsmstep) rfl ht run

/-! ### The integer offset (O45) -/

/-- Settles O45: an offset from 0 on doubles to less than half the alphabet, a negative one to `2 c + N` in the upper half. -/
theorem integerOffsetRoundTrips : Obligations.IntegerOffsetRoundTrips := by
  intro sf c hsf lo hi
  obtain ⟨q, hq⟩ : ∃ q : Nat, 2 ^ sf = 4 * q := Nat.pow_dvd_pow 2 hsf
  have hq' : (2 : Int) ^ sf = 4 * q := by exact_mod_cast hq
  have quarter : (4 * q : Int) / 4 = q := by omega
  rw [hq', quarter] at lo hi
  rw [hq', hq]
  by_cases hc : 0 ≤ c
  · have residue : 2 * c % (4 * q) = 2 * c := Int.emod_eq_of_lt (by omega) (by omega)
    rw [residue, integerCfo]
    split <;> omega
  · have residue : 2 * c % (4 * q) = 2 * c + 4 * q := by
      rw [← Int.add_emod_right]
      exact Int.emod_eq_of_lt (by omega) (by omega)
    rw [residue, integerCfo]
    split <;> omega

end Sys2Proof.Machine
end

section
/-! The first step in `SYNC` (rule R194): the estimators read and write nothing that the report or the error code is part of, so
the step may run them and then begin again as a later one. -/

namespace Sys2Proof.Machine

section

variable {s t a b : State}

/-- What the prologue, the correlator and the tracking leave as it was. -/
structure SameSequencer (s t : State) : Prop where
  cfg : t.cfg = s.cfg
  state : t.acq.state = s.acq.state
  position : t.acq.syncPos = s.acq.syncPos
  netIdOff : t.acq.netIdOff = s.acq.netIdOff
  downVal : t.acq.downVal = s.acq.downVal
  cause : t.resyncCause = s.resyncCause
  count : t.count = s.count
  report : t.report = s.report

theorem SameSequencer.refl (s : State) : SameSequencer s s := ⟨rfl, rfl, rfl, rfl, rfl, rfl, rfl, rfl⟩

theorem runCfoest_sameSequencer (h : runCfoest s = .ok t) : SameSequencer s t := by
  obtain ⟨r, rfl⟩ := runCfoest_eq h
  exact ⟨rfl, rfl, rfl, rfl, rfl, rfl, rfl, rfl⟩

theorem SameSequencer.stoest (h : SameSequencer s t) (hrun : runStoest t = .ok b) : SameSequencer s b := by
  obtain ⟨r, rfl⟩ := runStoest_eq hrun
  exact { h with }

theorem runCfoest_clearReport (h : runCfoest s = .ok t) : runCfoest s.clearReport = .ok t.clearReport := by
  obtain ⟨pre, down, rfl⟩ := (runCfoest_ok s t).1 h
  exact (runCfoest_ok s.clearReport _).2 ⟨pre, down, rfl⟩

theorem runStoest_clearReport (h : runStoest s = .ok t) : runStoest s.clearReport = .ok t.clearReport := by
  obtain ⟨prec, down, rfl⟩ := (runStoest_ok s t).1 h
  exact (runStoest_ok s.clearReport _).2 ⟨prec, down, rfl⟩

theorem estimate_first (hd : s.acq.estDone = false) (ha : runCfoest s = .ok a) (hb : runStoest a = .ok b) :
    estimate s.clearReport = .ok b.setEstDone.clearReport :=
  (estimate_ok s.clearReport _).2 (.inr ⟨hd, _, _, runCfoest_clearReport ha, runStoest_clearReport hb, rfl⟩)

/-- Once the prologue has run, a step begins with what it left. -/
theorem stepSync_of_estimate (h : estimate s = .ok t) (hd : t.acq.estDone = true) (hcfg : t.cfg = s.cfg) (p : SyncPos) :
    stepSync p s = stepSync p t := by
  have same : estimate s = estimate t := h.trans (estimate_done hd).symm
  have correlated (ref : RefSel) : estimateAndCorrelate ref s = estimateAndCorrelate ref t :=
    congrArg (fun r => r >>= fun u => readCorrected u >>= fun z => correlate z ref u) same
  cases p with
  | netId1 => simp only [stepSync, stepNetId1, correlated, n_of_cfg_eq hcfg, hcfg]
  | netId2 => simp only [stepSync, stepNetId2, correlated, n_of_cfg_eq hcfg, hcfg]
  | downchirp1 => simp only [stepSync, stepDownchirp1, same, n_of_cfg_eq hcfg]
  | downchirp2 => simp only [stepSync, stepDownchirp2, correlated, n_of_cfg_eq hcfg]
  | quarterDown => simp only [stepSync, stepQuarterDown, same, n_of_cfg_eq hcfg, hcfg]

theorem fsmStep_first (hs : s.acq.state = .sync) (hd : s.acq.estDone = false) (ha : runCfoest s = .ok a)
    (hb : runStoest a = .ok b) : fsmStep s = fsmStep b.setEstDone := by
  have same := (runCfoest_sameSequencer ha).stoest hb
  have later : stepCase s.clearReport = stepCase b.setEstDone.clearReport :=
    calc stepCase s.clearReport
        = stepSync s.acq.syncPos s.clearReport := stepCase_sync (s := s.clearReport) hs
      _ = stepSync s.acq.syncPos b.setEstDone.clearReport :=
        stepSync_of_estimate (estimate_first hd ha hb) rfl same.cfg _
      _ = stepSync b.acq.syncPos b.setEstDone.clearReport := by rw [same.position]
      _ = stepCase b.setEstDone.clearReport :=
        (stepCase_sync (s := b.setEstDone.clearReport) (same.state.trans hs)).symm
  rw [fsmStep, fsmStep, later]

theorem exec_fsmstep (ht : Testing s) : exec .fsmstep s = finish (fsmStep s) := by
  obtain ⟨started, test⟩ := ht
  show unitCommand fsmStep s = _
  rw [unitCommand, if_pos started, if_pos test]

/-- The error code a step finds does not matter: it ends with none. -/
theorem exec_fsmstep_setErr (ht : Testing s) (c : ErrCode) : exec .fsmstep (s.setErr c) = exec .fsmstep s := by
  rw [exec_fsmstep ht, exec_fsmstep (s := s.setErr c) ht]
  have blind : fsmStep (s.setErr c) = (fsmStep s).map (State.relabel s.test c) := blind_fsmStep s.test c s
  rw [blind]
  cases run : fsmStep s with
  | error f => rfl
  | ok t =>
    obtain ⟨-, test, -⟩ := body_sameMode (.inr ⟨.fsmstep, run⟩)
    show Host.Outcome.next (t.relabel s.test .none) = .next (t.relabel t.test .none)
    rw [test]

/-- Settles O37: `EST_DONE` set, the step runs past its prologue as the first one does past the estimators. -/
theorem firstSyncStepRunsTheEstimators : Obligations.FirstSyncStepRunsTheEstimators := by
  intro s a b ht hs hd ha hb
  obtain ⟨u, hu, rfl⟩ := runUnit_of_next (i := .cfoest) rfl ht ha
  obtain ⟨started, test⟩ := ht
  obtain ⟨ustarted, utest, -⟩ : SameMode s u := body_sameMode (.inr ⟨.cfoest, hu⟩)
  obtain ⟨v', hv', rfl⟩ :=
    runUnit_of_next (i := .stoest) (s := u.setErr .none) rfl ⟨ustarted.trans started, utest.trans test⟩ hb
  obtain ⟨v, hv, rfl⟩ := (blind_runStoest u.test .none).ok (s := u) hv'
  obtain ⟨vstarted, vtest, -⟩ : SameMode u v := body_sameMode (.inr ⟨.stoest, hv⟩)
  have testing : Testing v.setEstDone := ⟨vstarted.trans (ustarted.trans started), vtest.trans (utest.trans test)⟩
  have later : exec .fsmstep s = exec .fsmstep v.setEstDone := by
    rw [exec_fsmstep ⟨started, test⟩, exec_fsmstep testing, fsmStep_first hs hd hu hv]
  rw [later, ← exec_fsmstep_setErr testing .none, ← vtest]
  rfl

end

end Sys2Proof.Machine
end

section
/-! The transition table (rule R203): every completed step of the state machine, drain and invocation of `WORK` is one of its
rows, and no other command but `START` and `RESET` moves the sequencer. -/

namespace Sys2Proof.Machine

/-! ### Bins as register words -/

/-- `SF` is a field of four bits, so `N` is far below `NOSYM`'s word in any configuration. -/
theorem n_le_two_pow (s : State) : s.n ≤ 2 ^ 15 := Nat.pow_le_pow_right (by decide) (by have := s.cfg.sf.isLt; omega)

theorem toNat_nosymWord : nosymWord.toNat = 2 ^ 32 - 1 := rfl

section

variable {s : State} {b : Option Nat} {id : Nat}

theorem toNat_binWord {k : Nat} (hk : k < s.n) : (binWord (some k)).toNat = k := by
  have hn := n_le_two_pow s
  rw [binWord, BitVec.toNat_ofNat, Nat.mod_eq_of_lt (by omega)]

theorem ignored_iff_binWord (hb : ∀ k, b = some k → k < s.n) :
    ignored b s.n = true ↔ binWord b = 0 ∨ binWord b = 1 ∨ (binWord b).toNat + 1 = s.n := by
  cases b with
  | none =>
    have hn := n_le_two_pow s
    have top := toNat_nosymWord
    have noBin : ¬(nosymWord = 0 ∨ nosymWord = 1 ∨ nosymWord.toNat + 1 = s.n) := by
      rintro (h | h | h)
      · cases h
      · cases h
      · omega
    exact iff_of_false Bool.false_ne_true noBin
  | some k =>
    rw [ignored_some, ← BitVec.toNat_inj, ← BitVec.toNat_inj, toNat_binWord (hb k rfl)]
    rfl

theorem nearId_iff_near (hb : ∀ k, b = some k → k < s.n) : nearId b id = true ↔ near (binWord b) id := by
  cases b with
  | none => exact iff_of_false Bool.false_ne_true fun ⟨isBin, _⟩ => isBin rfl
  | some k =>
    have hn := n_le_two_pow s
    have hlt := hb k rfl
    have hk := toNat_binWord hlt
    have isBin : binWord (some k) ≠ nosymWord := by
      intro h
      rw [h, toNat_nosymWord] at hk
      omega
    rw [nearId_some, near, hk]
    exact (and_iff_right isBin).symm

theorem deviation_eq_binWord (hb : ∀ k, b = some k → k < s.n) (h : nearId b id = true) :
    deviation b id = ((binWord b).toNat : Int) - id := by
  cases b with
  | none => cases h
  | some k => rw [toNat_binWord (hb k rfl)]; rfl

end

/-! ### Counts as register words -/

theorem toInt_intWord_modEq (v : Int) : (intWord v).toInt ≡ v [ZMOD 2 ^ 32] := by
  rw [intWord, BitVec.toInt_ofInt]
  exact Int.bmod_emod

theorem intWord_congr {v w : Int} (h : v ≡ w [ZMOD 2 ^ 32]) : intWord v = intWord w := by
  apply BitVec.eq_of_toNat_eq
  have same : v % (2 ^ 32 : Nat) = w % (2 ^ 32 : Nat) := h
  rw [intWord, intWord, BitVec.toNat_ofInt, BitVec.toNat_ofInt, same]

/-- A count computed from a register is the one computed from the integer the register was written with. -/
theorem intWord_sub_toInt (os n v : Int) : intWord (os * (n - v)) = intWord (os * (n - (intWord v).toInt)) :=
  intWord_congr (((toInt_intWord_modEq v).symm.sub_left n).mul_left os)

theorem intWord_add_toInt (os n v : Int) : intWord (os * (n + v)) = intWord (os * (n + (intWord v).toInt)) :=
  intWord_congr (((toInt_intWord_modEq v).symm.add_left n).mul_left os)

/-! ### What the parts of a step leave alone -/

section

variable {s t u : State}

theorem SameSequencer.setEstDone (h : SameSequencer s t) : SameSequencer s t.setEstDone := { h with }

theorem estimate_sameSequencer (h : estimate s = .ok t) : SameSequencer s t := by
  obtain ⟨-, rfl⟩ | ⟨-, u, v, hu, hv, rfl⟩ := (estimate_ok s t).1 h
  · exact .refl _
  · exact ((runCfoest_sameSequencer hu).stoest hv).setEstDone

/-- The prologue and the correlation leave a bin below `N`, or none, in `R_BIN`. -/
theorem estimateAndCorrelate_sameSequencer {ref : RefSel} {b : Option Nat} (h : estimateAndCorrelate ref s = .ok (b, u)) :
    SameSequencer s u ∧ u.unit.rBin = binWord b ∧ ∀ k, b = some k → k < s.n := by
  obtain ⟨t, z, ht, hz, hc⟩ := (estimateAndCorrelate_ok ref s _).1 h
  have same := estimate_sameSequencer ht
  obtain ⟨⟨be, rfl, rfl⟩, hbin⟩ := correlate_spec (readCorrected_length hz) hc
  exact ⟨{ same with }, rfl, n_of_cfg_eq same.cfg ▸ hbin⟩

theorem track_sameSequencer (s : State) (b : Option Nat) (x : List Sample) : SameSequencer s (s.track b x) := by
  rw [State.track_eq]
  exact ⟨rfl, rfl, rfl, rfl, rfl, rfl, rfl, rfl⟩

/-! ### Rows of the table -/

theorem SameSequencer.resynchronised (h : SameSequencer s t) (v : Int) (c : Cause) :
    Resynchronised s ((t.consume v).resync c) c :=
  ⟨rfl, rfl, rfl, congrArg (fun count => count.resyncCount + 1) h.count⟩

/-- The sequencer has moved on and nothing else that the table speaks of has changed. -/
theorem SameSequencer.movedTo (h : SameSequencer s t) {x : SyncState} {p : SyncPos} (hx : u.acq.state = x)
    (hp : u.acq.syncPos = p) (cause : u.resyncCause = t.resyncCause) (count : u.count = t.count) : MovedTo s u x p :=
  ⟨hx, hp, cause.trans h.cause, congrArg Counters.resyncCount (count.trans h.count)⟩

/-- What a step consumes is all it reports: it begins with nothing produced. -/
theorem SameSequencer.reports (h : SameSequencer s t) (silent : s.report.produced = 0) (c : Int) :
    reports (t.consume c) c 0 := ⟨rfl, (congrArg Report.produced h.report).trans silent⟩

/-- A step in `DETECT` past the tracking: the run has its length, or goes on. -/
theorem SameSequencer.detectTransition (h : SameSequencer s t) (hs : s.acq.state = .detect) (silent : s.report.produced = 0) :
    Transition s t.endDetect := by
  have nup : t.nup = s.nup := congrArg (fun c : Cfg => c.nup.toNat) h.cfg
  have n := n_of_cfg_eq h.cfg
  unfold State.endDetect
  split
  · next hdone =>
    have produced : t.report.produced = 0 := (congrArg Report.produced h.report).trans silent
    refine .detectDone hs (nup ▸ hdone) (h.movedTo rfl rfl rfl rfl) ⟨?_, produced⟩
    rw [← n]
    exact intWord_sub_toInt _ _ _
  · next hpart =>
    exact .detectOn hs (nup ▸ hpart) (h.movedTo (h.state.trans hs) h.position rfl rfl) (n ▸ h.reports silent t.n)

theorem stepDetect_transition (hs : s.acq.state = .detect) (silent : s.report.produced = 0) (hrun : stepDetect s = .ok t) :
    Transition s t := by
  obtain ⟨be, -, -, -, rfl⟩ := stepDetect_spec hrun
  have tracked := track_sameSequencer (s.setCorrelator be) be.1 (s.vec .sym s.n)
  have same : SameSequencer s ((s.setCorrelator be).track be.1 (s.vec .sym s.n)) := { tracked with }
  exact same.detectTransition hs silent

theorem stepNetId1_transition (hs : s.acq.state = .sync) (hp : s.acq.syncPos = .netId1) (silent : s.report.produced = 0)
    (hrun : stepNetId1 s = .ok t) : Transition s t := by
  obtain ⟨b, u, hc, rfl⟩ := (stepNetId1_iff s t).1 hrun
  obtain ⟨same, hbin, hlt⟩ := estimateAndCorrelate_sameSequencer hc
  have ignore := hbin ▸ ignored_iff_binWord hlt
  have accept := hbin ▸ nearId_iff_near (id := s.cfg.netId1) hlt
  have rep := same.reports silent s.n
  unfold State.endNetId1
  split
  · next hign =>
    exact .netId1Ignored hs hp (ignore.1 hign) (same.movedTo (same.state.trans hs) (same.position.trans hp) rfl rfl) rep
  next hign =>
  split
  · next hnear =>
    exact .netId1Passed hs hp (mt ignore.2 hign) (accept.1 hnear) (same.movedTo (same.state.trans hs) rfl rfl rfl) rep
  · next hfar => exact .netId1Failed hs hp (mt ignore.2 hign) (mt accept.2 hfar) (same.resynchronised _ _) rep

theorem stepNetId2_transition (hs : s.acq.state = .sync) (hp : s.acq.syncPos = .netId2) (silent : s.report.produced = 0)
    (hrun : stepNetId2 s = .ok t) : Transition s t := by
  obtain ⟨b, u, hc, rfl⟩ := (stepNetId2_iff s t).1 hrun
  obtain ⟨same, hbin, hlt⟩ := estimateAndCorrelate_sameSequencer hc
  have accept := hbin ▸ nearId_iff_near (id := s.cfg.netId2) hlt
  have rep := same.reports silent
  have advanced (c : Int) : MovedTo s ({ u with acq := { u.acq with syncPos := .downchirp1 } }.consume c) .sync .downchirp1 :=
    same.movedTo (same.state.trans hs) rfl rfl rfl
  unfold State.endNetId2
  split
  · next hnear =>
    have dev := hbin ▸ deviation_eq_binWord hlt hnear
    rw [same.netIdOff, dev]
    split
    · next hoff =>
      obtain ⟨nonzero, repeats⟩ := hoff
      exact .netId2Repeats hs hp (accept.1 hnear) (fun h => nonzero (by rw [h]; rfl)) repeats (advanced _) (rep _)
    · next hoff =>
      refine .netId2Passed hs hp (accept.1 hnear) ?_ (advanced _) (rep _)
      by_cases h : s.acq.netIdOff = 0
      · exact .inl h
      · exact .inr fun repeats => hoff ⟨fun zero => h (BitVec.toInt_inj.1 zero), repeats⟩
  · next hfar => exact .netId2Failed hs hp (mt accept.2 hfar) (same.resynchronised _ _) (rep _)

theorem stepDownchirp1_transition (hs : s.acq.state = .sync) (hp : s.acq.syncPos = .downchirp1)
    (silent : s.report.produced = 0) (hrun : stepDownchirp1 s = .ok t) : Transition s t := by
  obtain ⟨u, hu, rfl⟩ := (stepDownchirp1_ok s t).1 hrun
  have same := estimate_sameSequencer hu
  exact .downchirp1 hs hp (same.movedTo (same.state.trans hs) rfl rfl rfl) (same.reports silent s.n)

theorem stepDownchirp2_transition (hs : s.acq.state = .sync) (hp : s.acq.syncPos = .downchirp2)
    (silent : s.report.produced = 0) (hrun : stepDownchirp2 s = .ok t) : Transition s t := by
  obtain ⟨b, u, hc, rfl⟩ := (stepDownchirp2_ok s t).1 hrun
  obtain ⟨same, -, -⟩ := estimateAndCorrelate_sameSequencer hc
  exact .downchirp2 hs hp (same.movedTo (same.state.trans hs) rfl rfl rfl) (same.reports silent s.n)

theorem stepQuarterDown_transition (hs : s.acq.state = .sync) (hp : s.acq.syncPos = .quarterDown)
    (silent : s.report.produced = 0) (hrun : stepQuarterDown s = .ok t) : Transition s t := by
  obtain ⟨u, hu, rfl⟩ := (stepQuarterDown_ok s t).1 hrun
  have same := estimate_sameSequencer hu
  by_cases hv : u.acq.downVal = nosymWord
  · rw [endSync_failed hv]
    exact .quarterDownFailed hs hp (same.downVal ▸ hv) (same.resynchronised _ _) (same.reports silent _)
  · rw [endSync_passed hv, enterFrame_eq]
    have produced : u.report.produced = 0 := (congrArg Report.produced same.report).trans silent
    exact .quarterDownPassed hs hp (same.downVal ▸ hv) (same.movedTo rfl (same.position.trans hp) rfl rfl)
      ⟨intWord_add_toInt _ _ _, produced⟩

theorem stepFrac_transition (hs : s.acq.state = .fracCfoCorrec) (hrun : stepFrac s = .ok t) : Transition s t := by
  unfold stepFrac at hrun
  split at hrun
  · next hout =>
    obtain ⟨z, -, rfl⟩ := (stepEmit_iff s t).1 hrun
    exact .emitted hs hout ⟨hs, rfl, rfl, rfl⟩ ⟨rfl, rfl⟩
  · next hend =>
    rw [← Except.ok.inj hrun]
    have nothing : intWord 0 = intWord (s.os * 0) := by rw [mul_zero]
    exact .frameEnd hs (Nat.not_lt.1 hend) ⟨rfl, rfl, rfl, rfl⟩ ⟨nothing, rfl⟩

theorem stepCase_transition (silent : s.report.produced = 0) (hrun : stepCase s = .ok t) : Transition s t :=
  stepCase_cases hrun (fun hs => stepDetect_transition hs silent) (fun hs hp => stepNetId1_transition hs hp silent)
    (fun hs hp => stepNetId2_transition hs hp silent) (fun hs hp => stepDownchirp1_transition hs hp silent)
    (fun hs hp => stepDownchirp2_transition hs hp silent) (fun hs hp => stepQuarterDown_transition hs hp silent)
    stepFrac_transition

/-! ### What the table does not speak of -/

/-- A step as a whole: the report it clears, the counts it adds, the mode and the error code are no part of a row. -/
theorem Transition.whole (h : Transition s.clearReport u) (b b' : Bool) (e e' : ErrCode) :
    Transition (s.relabel b e) (u.countUp.relabel b' e') := by
  cases h with
  | detectOn h c m r => exact .detectOn h c { m with } r
  | detectDone h c m r => exact .detectDone h c { m with } r
  | netId1Ignored h p b m r => exact .netId1Ignored h p b { m with } r
  | netId1Failed h p i b m r => exact .netId1Failed h p i b { m with } r
  | netId1Passed h p i b m r => exact .netId1Passed h p i b { m with } r
  | netId2Failed h p b m r => exact .netId2Failed h p b { m with } r
  | netId2Repeats h p b o d m r => exact .netId2Repeats h p b o d { m with } r
  | netId2Passed h p b d m r => exact .netId2Passed h p b d { m with } r
  | downchirp1 h p m r => exact .downchirp1 h p { m with } r
  | downchirp2 h p m r => exact .downchirp2 h p { m with } r
  | quarterDownFailed h p v m r => exact .quarterDownFailed h p v { m with } r
  | quarterDownPassed h p v m r => exact .quarterDownPassed h p v { m with } r
  | emitted h c m r => exact .emitted h c { m with } r
  | frameEnd h c m r => exact .frameEnd h c { m with } r

/-- Every completed step is a row, in either mode and whatever the error code before and after. -/
theorem fsmStep_transition (hrun : fsmStep s = .ok t) (b b' : Bool) (e e' : ErrCode) :
    Transition (s.relabel b e) (t.relabel b' e') := by
  obtain ⟨u, hu, rfl⟩ := (fsmStep_ok s t).1 hrun
  exact (stepCase_transition rfl hu).whole b b' e e'

/-! ### The drain -/

theorem applyEvent_outside (h : s.acq.state ≠ .fracCfoCorrec) (ev : Event) : s.applyEvent ev = s := if_neg h

theorem foldl_applyEvent_outside (h : s.acq.state ≠ .fracCfoCorrec) (evs : List Event) :
    evs.foldl State.applyEvent s = s := by
  induction evs with
  | nil => rfl
  | cons ev evs ih => rw [List.foldl_cons, applyEvent_outside h, ih]

theorem applyEvent_invalid {ev : Event} (hs : s.acq.state = .fracCfoCorrec) (h : ev.invalid = true) :
    s.applyEvent ev = s.resync .badHdr := (if_pos hs).trans (if_pos h)

theorem applyEvent_valid {ev : Event} (hs : s.acq.state = .fracCfoCorrec) (h : ev.invalid = false) :
    MovedTo s (s.applyEvent ev) .fracCfoCorrec s.acq.syncPos := by
  rw [State.applyEvent, if_pos hs, h, if_neg nofun]
  exact ⟨hs, rfl, rfl, rfl⟩

theorem MovedTo.trans {x y : SyncState} {p q : SyncPos} (h : MovedTo s t x p) (m : MovedTo t u y q) : MovedTo s u y q :=
  { m with cause := m.cause.trans h.cause, count := m.count.trans h.count }

theorem MovedTo.resynchronised {x : SyncState} {p : SyncPos} {c : Cause} (h : MovedTo s t x p) (m : Resynchronised t u c) :
    Resynchronised s u c := { m with count := m.count.trans (congrArg (· + 1) h.count) }

/-- The events applied in a frame, up to the first invalid one. -/
theorem foldl_applyEvent_frame (evs : List Event) (s : State) (hs : s.acq.state = .fracCfoCorrec) :
    ((∃ ev ∈ evs, ev.invalid = true) → Resynchronised s (evs.foldl State.applyEvent s) .badHdr) ∧
    (¬(∃ ev ∈ evs, ev.invalid = true) → MovedTo s (evs.foldl State.applyEvent s) .fracCfoCorrec s.acq.syncPos) := by
  induction evs generalizing s with
  | nil => exact ⟨fun ⟨_, h, _⟩ => (List.not_mem_nil h).elim, fun _ => ⟨hs, rfl, rfl, rfl⟩⟩
  | cons ev evs ih =>
    rw [List.foldl_cons]
    cases hev : ev.invalid with
    | true =>
      rw [applyEvent_invalid hs hev, foldl_applyEvent_outside (s := s.resync .badHdr) nofun]
      exact ⟨fun _ => ⟨rfl, rfl, rfl, rfl⟩, fun h => absurd ⟨ev, List.mem_cons_self, hev⟩ h⟩
    | false =>
      have next := applyEvent_valid hs hev
      obtain ⟨bad, good⟩ := ih _ next.state
      have tail : (∃ e ∈ ev :: evs, e.invalid = true) ↔ ∃ e ∈ evs, e.invalid = true := by simp [hev]
      rw [tail]
      exact ⟨fun h => next.resynchronised (bad h), fun h => next.position ▸ next.trans (good h)⟩

/-- The drain is the last row; outside a frame it drops its events. -/
theorem drainEvents_transition (s : State) (b : Bool) (e : ErrCode) : DrainTransition s (s.drainEvents.relabel b e) := by
  by_cases hs : s.acq.state = .fracCfoCorrec
  · obtain ⟨bad, good⟩ := foldl_applyEvent_frame s.evq { s with evq := [] } hs
    by_cases hbad : ∃ ev ∈ s.evq, ev.invalid = true
    · exact .inl ⟨hs, hbad, { bad hbad with }⟩
    · exact .inr ⟨fun ⟨_, h⟩ => hbad h, hs.symm ▸ { good hbad with }⟩
  · have same : s.drainEvents = { s with evq := [] } := foldl_applyEvent_outside (s := { s with evq := [] }) hs s.evq
    rw [same]
    exact .inr ⟨fun ⟨h, _⟩ => hs h, rfl, rfl, rfl, rfl⟩

/-! ### `WORK` -/

/-- An invocation past its drain, in the states the unit commands give it in `TEST` mode: a failed check, or one row. -/
theorem work_transition (hs : s.started = true) (hrun : invoke s = .ok t) :
    let a := s.drainEvents.relabel true .none
    (MovedTo a (t.setErr .none) a.acq.state a.acq.syncPos ∧ reports (t.setErr .none) 0 0 ∧
      (a.mail.inAvail.toNat < s.os * (s.n + 2) ∨
        (a.acq.state = .fracCfoCorrec ∧ a.acq.symCnt.toNat < a.acq.symbNumb.toNat ∧ a.mail.outCap.toNat < s.n))) ∨
    ∃ b c : State, exec .fdly a = .next b ∧ exec .downs b = .next c ∧ c.acq = a.acq ∧ c.cfg = a.cfg ∧
      c.resyncCause = a.resyncCause ∧ c.count = a.count ∧ Transition c (t.setErr .none) := by
  intro a
  obtain ⟨started, -, cfg⟩ := drainEvents_sameMode s
  obtain ⟨stuck, rfl⟩ | ⟨-, u, hu, ht⟩ := (invoke_ok s t).1 hrun
  · have nothing : intWord 0 = intWord (a.os * 0) := by rw [mul_zero]
    have checks := mt (canProgress_iff cfg).2 (Bool.eq_false_iff.1 stuck)
    refine .inl ⟨⟨rfl, rfl, rfl, rfl⟩, ⟨nothing, rfl⟩, ?_⟩
    rw [not_and_or, not_not, Nat.not_le] at checks
    exact checks
  · have downs := exec_relabel_ok (i := .downs) (u := s.drainEvents.setTap) rfl (started.trans hs)
      (blind_runDowns true .none) hu
    have row := fsmStep_transition ht true t.test .none .none
    obtain ⟨-, rfl⟩ := (runDowns_ok _ _).1 hu
    exact .inr ⟨_, _, exec_fdly_test hs, downs, rfl, rfl, rfl, rfl, row⟩

/-! ### The other commands -/

/-- The sequencer stands where it stood. -/
def SamePosition (s t : State) : Prop := t.acq.state = s.acq.state ∧ t.acq.syncPos = s.acq.syncPos

theorem runUnit_samePosition {i : Instr} (hstep : i ≠ .fsmstep) (hdrain : i ≠ .drain) (hrun : runUnit i s = .ok t) :
    SamePosition s t := by
  cases i with
  | fsmstep => exact absurd rfl hstep
  | drain => exact absurd rfl hdrain
  | demod ref src =>
    obtain ⟨be, rfl⟩ := runUnit_demod_ok ref src s t hrun
    exact ⟨rfl, rfl⟩
  | cfoest =>
    have same := runCfoest_sameSequencer hrun
    exact ⟨same.state, same.position⟩
  | cfoalt =>
    obtain ⟨r, rfl⟩ := runUnit_cfoalt_ok s t hrun
    exact ⟨rfl, rfl⟩
  | stoest =>
    have same := (SameSequencer.refl s).stoest hrun
    exact ⟨same.state, same.position⟩
  | downs =>
    obtain ⟨-, rfl⟩ := (runDowns_ok s t).1 hrun
    exact ⟨rfl, rfl⟩
  | nop | reset | start | work | frameInfo | gen | interp | fdly => exact Except.ok.inj hrun ▸ ⟨rfl, rfl⟩

theorem exec_samePosition {i : Instr} (hstep : i ≠ .fsmstep) (hdrain : i ≠ .drain) (hwork : i ≠ .work)
    (hreset : i ≠ .reset) (hstart : ∀ m : Mode, i ≠ .start m) (h : exec i s = .next t) : SamePosition s t := by
  cases exec_next i s t h with
  | refused | nop | frameInfo => exact ⟨rfl, rfl⟩
  | reset => exact absurd rfl hreset
  | start m => exact absurd rfl (hstart m)
  | work => exact absurd rfl hwork
  | unit _ u _ _ run => exact runUnit_samePosition (t := u) hstep hdrain run

end

/-- Settles O44: a row for each position of the step, one for the drain, and both for `WORK`. -/
theorem sequencerMovesByTheTransitionTable : Obligations.SequencerMovesByTheTransitionTable := by
  refine ⟨fun s t ht h => ?_, fun s t ht h => ?_, fun s t hs h => ?_,
    fun i s t hstep hdrain hwork hreset hstart h => exec_samePosition hstep hdrain hwork hreset hstart h⟩
  · obtain ⟨u, hu, rfl⟩ := runUnit_of_next (i := .fsmstep) rfl ht h
    exact fsmStep_transition hu s.test u.test s.err .none
  · obtain ⟨u, hu, rfl⟩ := runUnit_of_next (i := .drain) rfl ht h
    exact Except.ok.inj hu ▸ drainEvents_transition s s.drainEvents.test .none
  · obtain ⟨-, u, hu, rfl⟩ | ⟨stopped, -⟩ := (hostCommand_next invoke s t).1 h
    · exact ⟨_, exec_drain_test hs, drainEvents_transition s true .none, work_transition hs hu⟩
    · exact absurd (hs.symm.trans stopped) nofun

end Sys2Proof.Machine
end

section
/-! The host commands `NOP` and `START`, the drain, and `WORK` without progress (rules R221 to R225): what each of them leaves. -/

namespace Sys2Proof.Machine

/-! ### `START` (O18) -/

theorem execStart_valid {s : State} (m : Mode) (hs : s.started = false) (valid : s.cfg.valid = true) :
    exec (.start m) s = .next ((s.construct m).setErr .none) := by
  change execStart m s = _
  rw [execStart, if_neg (by rw [hs]; decide), if_pos valid]
  rfl

theorem construct_mems (s : State) (m : Mode) :
    (s.construct m).mems = (s.generate.storeElems .corr 0 (List.replicate s.n s.nums.cone)).mems := rfl

/-- `START` stores `N` elements in each of `UP`, `DOWN` and `CORR` and no other word. -/
theorem load_construct_frame {s : State} (m : Mode) {sp : Space} {off : Nat}
    (h : ¬((sp = .up ∨ sp = .down ∨ sp = .corr) ∧ off < 2 * s.n)) : (s.construct m).load sp off = s.load sp off := by
  have corr : ¬(sp = .corr ∧ off < 2 * (List.replicate s.n s.nums.cone).length) := by
    rw [List.length_replicate]; tauto
  have chirps : ¬((sp = .up ∨ sp = .down) ∧ off < 2 * s.n) := by tauto
  calc (s.construct m).load sp off
      = (s.generate.storeElems .corr 0 (List.replicate s.n s.nums.cone)).load sp off := by
        rw [State.load, State.load, State.mem_congr (construct_mems s m)]
    _ = s.generate.load sp off := load_storeElems_frame corr
    _ = s.load sp off := load_generate_frame chirps

/-- Settles O18: `START` constructs the block from the chirp pair of `generate` and a `CORR` of ones. -/
theorem startConstructsTheBlock : Obligations.StartConstructsTheBlock := by
  intro s m hs valid
  obtain ⟨up, down⟩ := holds_generate s
  have corr : AllEqual (s.construct m) .corr s.n s.nums.cone := allEqual_storeElems s.generate .corr s.n s.nums.cone
  exact ⟨_, execStart_valid m hs valid, rfl, up.congr rfl, down.congr rfl, corr, fun sp off h => load_construct_frame m h⟩

/-! ### `DRAIN` (O20) -/

section

variable {s : State}

/-- The header of a valid event, taken over in a frame (rule R225). -/
def State.takeHeader (s : State) (ev : Event) : State :=
  { s with acq := { s.acq with symbNumb := ev.symbNumb.setWidth 32 }
           fmPaylen := ev.payLen.setWidth 32
           fmHascrc := ev.hasCrc }

theorem applyEvent_eq_takeHeader {ev : Event} (hs : s.acq.state = .fracCfoCorrec) (h : ev.invalid = false) :
    s.applyEvent ev = s.takeHeader ev := by
  rw [State.applyEvent, if_pos hs, h, if_neg nofun]
  rfl

/-- A header replaces all that an earlier one set. -/
theorem takeHeader_takeHeader (s : State) (x y : Event) : (s.takeHeader x).takeHeader y = s.takeHeader y := rfl

/-- Of the valid events of a frame the last one stands. -/
theorem foldl_applyEvent_valid {evs : List Event} (hs : s.acq.state = .fracCfoCorrec) (h : ∀ x ∈ evs, x.invalid = false) :
    evs.foldl State.applyEvent s = evs.getLast?.elim s s.takeHeader := by
  induction evs using List.reverseRecOn with
  | nil => rfl
  | append_singleton evs e ih =>
    have valid : e.invalid = false := h e (by simp)
    rw [List.foldl_concat, ih fun x hx => h x (by simp [hx]), List.getLast?_concat]
    cases evs.getLast? with
    | none => exact applyEvent_eq_takeHeader hs valid
    | some x => exact (applyEvent_eq_takeHeader (s := s.takeHeader x) hs valid).trans (takeHeader_takeHeader s x e)

/-- The first invalid event resynchronises, and leaves the frame for the events behind it. -/
theorem foldl_applyEvent_invalid {evs post : List Event} {e : Event} (hs : s.acq.state = .fracCfoCorrec)
    (h : ∀ x ∈ evs, x.invalid = false) (bad : e.invalid = true) :
    (evs ++ e :: post).foldl State.applyEvent s = (evs.getLast?.elim s s.takeHeader).resync .badHdr := by
  have inFrame : (evs.getLast?.elim s s.takeHeader).acq.state = .fracCfoCorrec := by
    cases evs.getLast? <;> exact hs
  rw [List.foldl_append, foldl_applyEvent_valid hs h, List.foldl_cons, applyEvent_invalid inFrame bad]
  exact foldl_applyEvent_outside (s := State.resync _ .badHdr) nofun post

/-- Resynchronisation forgets `SYMB_NUMB`, so of the last header only the frame registers remain. -/
theorem resync_takeHeader (s : State) (last : Option Event) (c : Cause) :
    (last.elim s s.takeHeader).resync c =
      State.resync { s with
        fmPaylen := (last.map fun x => x.payLen.setWidth 32).getD s.fmPaylen
        fmHascrc := (last.map fun x => x.hasCrc).getD s.fmHascrc } c := by
  cases last <;> rfl

theorem drainEvents_idle (h : s.acq.state ≠ .fracCfoCorrec ∨ s.evq = []) : s.drainEvents = { s with evq := [] } := by
  obtain outside | empty := h
  · exact foldl_applyEvent_outside (s := { s with evq := [] }) outside s.evq
  · rw [State.drainEvents, empty, List.foldl_nil]

theorem drainEvents_valid {evs : List Event} {e : Event} (hs : s.acq.state = .fracCfoCorrec) (hq : s.evq = evs ++ [e])
    (h : ∀ x ∈ s.evq, x.invalid = false) : s.drainEvents = State.takeHeader { s with evq := [] } e := by
  rw [State.drainEvents, foldl_applyEvent_valid (s := { s with evq := [] }) hs h, hq, List.getLast?_concat]
  rfl

theorem drainEvents_invalid {evs post : List Event} {e : Event} (hs : s.acq.state = .fracCfoCorrec)
    (hq : s.evq = evs ++ e :: post) (h : ∀ x ∈ evs, x.invalid = false) (bad : e.invalid = true) :
    s.drainEvents = State.resync { s with
      evq := []
      fmPaylen := (evs.getLast?.map fun x => x.payLen.setWidth 32).getD s.fmPaylen
      fmHascrc := (evs.getLast?.map fun x => x.hasCrc).getD s.fmHascrc } .badHdr := by
  rw [State.drainEvents, hq, foldl_applyEvent_invalid (s := { s with evq := [] }) hs h bad, resync_takeHeader]

theorem exec_drain (ht : Testing s) : exec .drain s = .next (s.drainEvents.setErr .none) :=
  exec_unit_ok (i := .drain) rfl ht rfl

end

/-- Settles O20: outside a frame events are dropped; in one the last valid header stands, up to the first invalid one. -/
theorem drainAppliesEventsOfTheFrameInProgress : Obligations.DrainAppliesEventsOfTheFrameInProgress := by
  intro s ht
  rw [exec_drain ht]
  refine ⟨fun idle => ?_, fun evs e hs hq h => ?_, fun evs post e hs hq h bad => ?_⟩
  · rw [drainEvents_idle idle]
    rfl
  · rw [drainEvents_valid hs hq h]
    rfl
  · rw [drainEvents_invalid hs hq h bad]
    rfl

/-! ### `NOP` (O17) -/

/-- Opcode 0 is that of `NOP` alone (rule R91). -/
theorem eq_nop_of_encodeOp {i : Instr} (h : encodeOp i = 0) : i = .nop := by
  cases i with
  | nop => rfl
  | _ => exact absurd h (by simp [encodeOp])

/-- Of the words with opcode 0 only the word 0 is legal (rules R91, R92). -/
theorem eq_zero_of_legalWord {w : Word} (hop : opField w = 0) (legal : legalWord w = true) : w = 0 := by
  obtain ⟨i, hi⟩ := (legalWord_iff w).1 legal
  obtain rfl := eq_encode_of_decode hi
  obtain ⟨op, -⟩ := wordFields i
  rw [eq_nop_of_encodeOp (op.symm.trans hop)]
  rfl

/-- Settles O17: `NOP` runs no check, and a legal word with its opcode is the word 0. -/
theorem nopOnlyClearsTheErrorCode : Obligations.NopOnlyClearsTheErrorCode :=
  ⟨rfl, fun _ hop hne => Bool.eq_false_iff.2 fun legal => hne (eq_zero_of_legalWord hop legal), fun _ => rfl⟩

/-! ### `WORK` without progress (O21) -/

theorem invoke_of_not_canProgress {s : State} (h : s.drainEvents.canProgress = false) :
    invoke s = .ok s.drainEvents.noProgress := (invoke_ok s _).2 (.inl ⟨h, rfl⟩)

/-- Settles O21: one of the progress checks fails on the drained state, and the report of no progress is all that follows. -/
theorem workWithoutProgressReportsZero : Obligations.WorkWithoutProgressReportsZero := by
  intro s hs d short
  obtain ⟨-, -, hcfg⟩ := drainEvents_sameMode s
  have stuck : ¬d.canProgress = true := by
    rw [canProgress_iff hcfg, not_and_or, Nat.not_le, not_not]
    exact short
  exact hostCommand_ok hs (invoke_of_not_canProgress (Bool.eq_false_iff.2 stuck))

end Sys2Proof.Machine
end

section
/-! Departures from the course of an access: command errors are precise (rules R241, R249), and what a resynchronisation resets
(rules R250, R251). -/

namespace Sys2Proof.Machine

/-! ### Errors (O14) -/

/-- A command is refused, with the error code all that changes, or it executes and clears the code (rules R93 (6), R241). -/
theorem Executed.refused_or_cleared {i : Instr} {s t : State} (h : Executed s i t) :
    t = s.setErr t.err ∨ t.err = .none := by
  cases h with
  | refused => exact .inl rfl
  | nop | reset | start | frameInfo | work | unit => exact .inr rfl

/-- A write is refused, with the error code all that changes, or it leaves no error code but the one it found. -/
theorem Wrote.refused_or_no_new_error {a : Addr} {w : Word} {s t : State} (h : Wrote a w s t) :
    t = s.setErr t.err ∨ t.err = .none ∨ t.err = s.err := by
  cases h with
  | refused => exact .inl rfl
  | register r =>
    obtain ⟨-, -, -, err, -⟩ := writeReg_frame s r w
    exact .inr (.inr err)
  | sample => exact .inr (.inr rfl)
  | command i _ _ _ h =>
    obtain refused | cleared := h.refused_or_cleared
    · exact .inl refused
    · exact .inr (.inl cleared)

/-- Settles O14: only a write can set a new error code, and it does so by being refused. -/
theorem errorsChangeNothingElse : Obligations.ErrorsChangeNothingElse := by
  intro s t h new code
  obtain ⟨-, rfl⟩ | ⟨a, rest, w, -, -, rfl⟩ | ⟨a, w, rest, hbus, h⟩ := (step_next s t).1 h
  · exact absurd rfl new
  · exact absurd rfl new
  · obtain refused | cleared | kept := (busWrite_next a w _ t h).refused_or_no_new_error
    · rw [hbus]
      exact refused
    · exact absurd cleared code
    · exact absurd kept new

/-! ### Resynchronisation (O43) -/

theorem State.resync_mems (s : State) (c : Cause) :
    (s.resync c).mems = (s.storeElems .corr 0 (List.replicate s.n s.nums.cone)).mems := rfl

/-- A resynchronisation stores `N` elements of `CORR` and no other word. -/
theorem sameBut_resync (s : State) (c : Cause) : SameBut s (s.resync c) .corr 0 s.n := by
  have stored := sameBut_storeElems s .corr (List.replicate s.n s.nums.cone)
  rw [List.length_replicate] at stored
  intro sp off outside
  rw [State.load, State.mem_congr (State.resync_mems s c)]
  exact stored sp off outside

/-- Settles O43: the neutral context is the rule's, and the memories are those of one store of ones to `CORR`. -/
theorem resynchronisationResetsTheAcquisition : Obligations.ResynchronisationResetsTheAcquisition :=
  fun s c => ⟨rfl, allEqual_storeElems s .corr s.n s.nums.cone, sameBut_resync s c⟩

end Sys2Proof.Machine
end
